-- ==== Sys2Proof/Word.lean ====
section
/-! DEFINITION. The widths of the block's values (spec 00_scope.md R17): bytes, 16-bit register values, 32-bit op words. -/

namespace Sys2Proof

/-- A byte: `u8` of R17. -/
abbrev Byte := BitVec 8

/-- A 16-bit register or response value: `u16` of R17. -/
abbrev Half := BitVec 16

/-- An operation word: `u32` of R17, R70. -/
abbrev OpWord := BitVec 32

end Sys2Proof
end

