-- ==== Sys2Proof/Config.lean ====
section
/-! DEFINITION. The parameters of the block (spec 00_scope.md section 3), each at the value this hardware takes, and the
one parameter the spec leaves open (`OP_BYTE_ORDER`). Log entries 5, 6 and 7. -/

namespace Sys2Proof

/-- CommandId: the "closed enumeration of device opcodes" in the order of 30_encoding.md R79. -/
inductive CommandId where
  | paper
  | getDeviceState
  | quality
  | energy
  | lattice
  | printSpeed
  | printMode
  | bitmapData
  deriving DecidableEq, Repr

/-- The two orders in which a platform could carry an op word over a byte-wide link (20_memory.md R57). -/
inductive ByteOrder where
  | little
  | big
  deriving DecidableEq, Repr, Inhabited

namespace Config

/-- `HRES`, the horizontal resolution in dots (R7). -/
def HRES : Nat := 384

/-- `ROW_BYTES` = `HRES / 8`, the bytes of one bitmap row (R8). -/
def ROW_BYTES : Nat := HRES / 8

/-- `THRESHOLD`: a pixel below it is dark (R9). -/
def THRESHOLD : Byte := 127

/-- `CRC_INIT`, the CRC start value (R10). -/
def CRC_INIT : Byte := 0x00

/-- `MAGIC`, the first two bytes of a frame (R12). -/
def MAGIC : List Byte := [0x51, 0x78]

/-- `TERMINATOR`, the last byte of a frame (R13). -/
def TERMINATOR : Byte := 0xFF

/-- `DIR_TO_DEVICE`, the only direction byte the block emits (R14). -/
def DIR_TO_DEVICE : Byte := 0x00

/-- `DIR_FROM_DEVICE`, the direction byte of frames a device sends; the block never emits it in that place (R14, R122). -/
def DIR_FROM_DEVICE : Byte := 0x01

/-- `MAX_LEN`, the largest payload length a frame can declare (R15). -/
def MAX_LEN : Nat := 65535

/-- `OPC`, from CommandId to frame opcode byte (R16; 30_encoding.md R80). -/
def OPC : CommandId → Byte
  | .paper => 0xA1
  | .getDeviceState => 0xA3
  | .quality => 0xA4
  | .energy => 0xAF
  | .lattice => 0xA6
  | .printSpeed => 0xBD
  | .printMode => 0xBE
  | .bitmapData => 0xA2

/-- `OP_BYTE_ORDER`: the spec leaves it open (R57, D29), so nothing here says which it is. UNVERIFIED; log entry 7. -/
opaque opByteOrder : ByteOrder

/-- Row `0x00` of the table of R101. -/
def crcRow0 : List Byte :=
  [0x00, 0x07, 0x0E, 0x09, 0x1C, 0x1B, 0x12, 0x15, 0x38, 0x3F, 0x36, 0x31, 0x24, 0x23, 0x2A, 0x2D]

/-- Row `0x10` of the table of R101. -/
def crcRow1 : List Byte :=
  [0x70, 0x77, 0x7E, 0x79, 0x6C, 0x6B, 0x62, 0x65, 0x48, 0x4F, 0x46, 0x41, 0x54, 0x53, 0x5A, 0x5D]

/-- Row `0x20` of the table of R101. -/
def crcRow2 : List Byte :=
  [0xE0, 0xE7, 0xEE, 0xE9, 0xFC, 0xFB, 0xF2, 0xF5, 0xD8, 0xDF, 0xD6, 0xD1, 0xC4, 0xC3, 0xCA, 0xCD]

/-- Row `0x30` of the table of R101. -/
def crcRow3 : List Byte :=
  [0x90, 0x97, 0x9E, 0x99, 0x8C, 0x8B, 0x82, 0x85, 0xA8, 0xAF, 0xA6, 0xA1, 0xB4, 0xB3, 0xBA, 0xBD]

/-- Row `0x40` of the table of R101. -/
def crcRow4 : List Byte :=
  [0xC7, 0xC0, 0xC9, 0xCE, 0xDB, 0xDC, 0xD5, 0xD2, 0xFF, 0xF8, 0xF1, 0xF6, 0xE3, 0xE4, 0xED, 0xEA]

/-- Row `0x50` of the table of R101. -/
def crcRow5 : List Byte :=
  [0xB7, 0xB0, 0xB9, 0xBE, 0xAB, 0xAC, 0xA5, 0xA2, 0x8F, 0x88, 0x81, 0x86, 0x93, 0x94, 0x9D, 0x9A]

/-- Row `0x60` of the table of R101. -/
def crcRow6 : List Byte :=
  [0x27, 0x20, 0x29, 0x2E, 0x3B, 0x3C, 0x35, 0x32, 0x1F, 0x18, 0x11, 0x16, 0x03, 0x04, 0x0D, 0x0A]

/-- Row `0x70` of the table of R101. -/
def crcRow7 : List Byte :=
  [0x57, 0x50, 0x59, 0x5E, 0x4B, 0x4C, 0x45, 0x42, 0x6F, 0x68, 0x61, 0x66, 0x73, 0x74, 0x7D, 0x7A]

/-- Row `0x80` of the table of R101. -/
def crcRow8 : List Byte :=
  [0x89, 0x8E, 0x87, 0x80, 0x95, 0x92, 0x9B, 0x9C, 0xB1, 0xB6, 0xBF, 0xB8, 0xAD, 0xAA, 0xA3, 0xA4]

/-- Row `0x90` of the table of R101. -/
def crcRow9 : List Byte :=
  [0xF9, 0xFE, 0xF7, 0xF0, 0xE5, 0xE2, 0xEB, 0xEC, 0xC1, 0xC6, 0xCF, 0xC8, 0xDD, 0xDA, 0xD3, 0xD4]

/-- Row `0xA0` of the table of R101. -/
def crcRowA : List Byte :=
  [0x69, 0x6E, 0x67, 0x60, 0x75, 0x72, 0x7B, 0x7C, 0x51, 0x56, 0x5F, 0x58, 0x4D, 0x4A, 0x43, 0x44]

/-- Row `0xB0` of the table of R101. -/
def crcRowB : List Byte :=
  [0x19, 0x1E, 0x17, 0x10, 0x05, 0x02, 0x0B, 0x0C, 0x21, 0x26, 0x2F, 0x28, 0x3D, 0x3A, 0x33, 0x34]

/-- Row `0xC0` of the table of R101. -/
def crcRowC : List Byte :=
  [0x4E, 0x49, 0x40, 0x47, 0x52, 0x55, 0x5C, 0x5B, 0x76, 0x71, 0x78, 0x7F, 0x6A, 0x6D, 0x64, 0x63]

/-- Row `0xD0` of the table of R101. -/
def crcRowD : List Byte :=
  [0x3E, 0x39, 0x30, 0x37, 0x22, 0x25, 0x2C, 0x2B, 0x06, 0x01, 0x08, 0x0F, 0x1A, 0x1D, 0x14, 0x13]

/-- Row `0xE0` of the table of R101. -/
def crcRowE : List Byte :=
  [0xAE, 0xA9, 0xA0, 0xA7, 0xB2, 0xB5, 0xBC, 0xBB, 0x96, 0x91, 0x98, 0x9F, 0x8A, 0x8D, 0x84, 0x83]

/-- Row `0xF0` of the table of R101. -/
def crcRowF : List Byte :=
  [0xDE, 0xD9, 0xD0, 0xD7, 0xC2, 0xC5, 0xCC, 0xCB, 0xE6, 0xE1, 0xE8, 0xEF, 0xFA, 0xFD, 0xF4, 0xF3]

/-- `CRC_TABLE`, the 256 entries of 40_crc.md R101 (this hardware's value of the parameter of R11). PRESUMED by the spec
itself ("from general knowledge, not in source"); log entry 5. -/
def crcTable : List Byte :=
  crcRow0 ++ crcRow1 ++ crcRow2 ++ crcRow3 ++ crcRow4 ++ crcRow5 ++ crcRow6 ++ crcRow7 ++
    (crcRow8 ++ crcRow9 ++ crcRowA ++ crcRowB ++ crcRowC ++ crcRowD ++ crcRowE ++ crcRowF)

theorem crcTable_length : crcTable.length = 256 := by decide +kernel

/-- `T[i]`: entry `i` of `CRC_TABLE` (R18, R35). Every 8-bit index is in range. -/
def T (i : Byte) : Byte :=
  crcTable[i.toNat]'(crcTable_length ▸ i.isLt)

end Config

end Sys2Proof
end

