-- ==== Sys2Proof/Syntax.lean ====
section
/-! DEFINITION. What the machine is given to run: one constructor per row of spec/opcode_table.json, the codes that carry
them, and the assembler's terms (30_encoding.md section 5). -/

namespace Sys2Proof

/-- The rows of spec/opcode_table.json. The first twelve are the operations of an op word (30_encoding.md R76). The last
eight are the frame opcode bytes (R80), as a reader of emitted frames decodes them (R81). -/
inductive Instr where
  | nop
  | srst
  | rdreg (reg : Byte)
  | crcClr
  | crcUpd (imm8 : Byte)
  | crcTab (imm8 : Byte)
  | frBegin (cmd : CommandId) (len : Half)
  | frData (imm8 : Byte)
  | frAbort
  | serClr
  | serPix (imm8 : Byte)
  | serEmit
  | paper
  | getDeviceState
  | quality
  | energy
  | lattice
  | printSpeed
  | printMode
  | bitmapData
  deriving DecidableEq, Repr

/-- The bits of one row of the table: a 32-bit op word on `OP_I`, or the frame opcode byte of an emitted frame. -/
inductive Code where
  | op (w : OpWord)
  | frame (b : Byte)
  deriving DecidableEq, Repr

/-- One operation as an assembler line writes it (R83): its numbers are not yet checked against the fields. -/
inductive AsmOp where
  | nop
  | srst
  | rdreg (reg : Nat)
  | crcClr
  | crcUpd (imm8 : Nat)
  | crcTab (imm8 : Nat)
  | frBegin (cmd : Nat) (len : Nat)
  | frData (imm8 : Nat)
  | frAbort
  | serClr
  | serPix (imm8 : Nat)
  | serEmit
  deriving DecidableEq, Repr

/-- The pseudo-instructions of R86. -/
inductive Pseudo where
  | crcBytes (bytes : List Nat)
  | frFrame (cmd : Nat) (bytes : List Nat)
  | serRow (pixels : List Nat)
  | rdrow (k : Nat)
  deriving DecidableEq, Repr

end Sys2Proof
end

