-- ==== Sys2Proof/WellFormed.lean ====
section
/-! DEFINITION. Which assembler terms are well formed (30_encoding.md R83, R86): "an out-of-range number is an assembly
error, not an encoding". An `Instr` needs no check: each operand has exactly the width of its field (R82), every `cmd`
value is assigned (R79) and every `reg` value decodes (R75). -/

namespace Sys2Proof

/-- A number an 8-bit field holds (R83). -/
def fitsByte (n : Nat) : Bool := decide (n < 256)

/-- The ranges of R83. -/
def AsmOp.wf : AsmOp → Bool
  | .rdreg reg => fitsByte reg
  | .crcUpd imm8 => fitsByte imm8
  | .crcTab imm8 => fitsByte imm8
  | .frBegin cmd len => decide (cmd < 8) && decide (len ≤ Config.MAX_LEN)
  | .frData imm8 => fitsByte imm8
  | .serPix imm8 => fitsByte imm8
  | .nop | .srst | .crcClr | .frAbort | .serClr | .serEmit => true

/-- The conditions of R86, with the ranges of R83 on every number an expansion passes on. -/
def Pseudo.wf : Pseudo → Bool
  | .crcBytes bytes => bytes.all fitsByte
  | .frFrame cmd bytes => decide (cmd < 8) && decide (bytes.length ≤ Config.MAX_LEN) && bytes.all fitsByte
  | .serRow pixels => decide (pixels.length ≤ Config.HRES) && pixels.all fitsByte
  | .rdrow k => decide (k < Config.ROW_BYTES)

end Sys2Proof
end

