-- ==== Sys2Proof/Decode.lean ====
section
/-! DEFINITION. Decoding and encoding (spec 30_encoding.md): the operation map, the decoder that is total on every word,
byte and byte list, and the encoder of the format diagrams. -/

namespace Sys2Proof

/-! ### CommandId numbers (R79) -/

/-- The 3-bit number of a CommandId in the `cmd` field (R79). -/
def CommandId.number : CommandId → BitVec 3
  | .paper => 0
  | .getDeviceState => 1
  | .quality => 2
  | .energy => 3
  | .lattice => 4
  | .printSpeed => 5
  | .printMode => 6
  | .bitmapData => 7

/-- The CommandId a 3-bit number names; all eight values are assigned (R79). -/
def CommandId.ofNumber (n : BitVec 3) : CommandId :=
  if n = 0 then .paper
  else if n = 1 then .getDeviceState
  else if n = 2 then .quality
  else if n = 3 then .energy
  else if n = 4 then .lattice
  else if n = 5 then .printSpeed
  else if n = 6 then .printMode
  else .bitmapData

/-- Every CommandId, in the order of R79. -/
def CommandId.all : List CommandId :=
  [.paper, .getDeviceState, .quality, .energy, .lattice, .printSpeed, .printMode, .bitmapData]

/-! ### Operand fields (R82) -/

/-- `imm8 = W[7:0]` (R82). -/
def imm8Of (w : OpWord) : Byte := w.extractLsb' 0 8

/-- `reg = W[7:0]` (R82). -/
def regOf (w : OpWord) : Byte := w.extractLsb' 0 8

/-- `cmd = W[18:16]` (R82), as the CommandId it numbers. -/
def cmdOf (w : OpWord) : CommandId := CommandId.ofNumber (w.extractLsb' 16 3)

/-- `len = W[15:0]` (R82). -/
def lenOf (w : OpWord) : Half := w.extractLsb' 0 16

/-- The major opcode, bits 31:24 (R71). -/
def majorOf (w : OpWord) : Byte := w.extractLsb' 24 8

/-! ### The operation map (R76) -/

/-- One row of the operation map: its `match` and `mask` columns, and the operation its operand fields give. -/
structure OpRow where
  bits : OpWord
  mask : OpWord
  build : OpWord → Instr

/-- `(W & mask) = match` (R77). -/
def OpRow.covers (r : OpRow) (w : OpWord) : Bool := w &&& r.mask == r.bits

/-- The twelve rows of R76, in its order. -/
def opRows : List OpRow :=
  [ ⟨0x00000000#32, 0xFFFFFFFF#32, fun _ => .nop⟩,
    ⟨0x01000000#32, 0xFFFFFFFF#32, fun _ => .srst⟩,
    ⟨0x02000000#32, 0xFFFFFF00#32, fun w => .rdreg (regOf w)⟩,
    ⟨0x10000000#32, 0xFFFFFFFF#32, fun _ => .crcClr⟩,
    ⟨0x11000000#32, 0xFFFFFF00#32, fun w => .crcUpd (imm8Of w)⟩,
    ⟨0x12000000#32, 0xFFFFFF00#32, fun w => .crcTab (imm8Of w)⟩,
    ⟨0x20000000#32, 0xFFF80000#32, fun w => .frBegin (cmdOf w) (lenOf w)⟩,
    ⟨0x21000000#32, 0xFFFFFF00#32, fun w => .frData (imm8Of w)⟩,
    ⟨0x22000000#32, 0xFFFFFFFF#32, fun _ => .frAbort⟩,
    ⟨0x30000000#32, 0xFFFFFFFF#32, fun _ => .serClr⟩,
    ⟨0x31000000#32, 0xFFFFFF00#32, fun w => .serPix (imm8Of w)⟩,
    ⟨0x32000000#32, 0xFFFFFFFF#32, fun _ => .serEmit⟩ ]

/-! ### The decoder (R77, R78, R81) -/

/-- Why bits are no instruction. -/
inductive Reject where
  /-- The major opcode is none of the twelve (R78, first case). -/
  | unassignedOpcode
  /-- The major opcode is assigned and a must-be-zero operand bit is set (R78, second case). -/
  | reservedBits
  /-- A frame opcode byte outside the table of R80 "names no command" (R81). -/
  | unknownFrameOpcode
  /-- The bytes of a byte-wide link are not the four of one op word (R57, R70). -/
  | notOneOpWord
  deriving DecidableEq, Repr

/-- An op word as an instruction, or why it is illegal (R77, R78). -/
def decodeOp (w : OpWord) : Except Reject Instr :=
  match opRows.find? (fun r => r.covers w) with
  | some r => .ok (r.build w)
  | none =>
    if opRows.any (fun r => majorOf r.bits == majorOf w) then .error .reservedBits
    else .error .unassignedOpcode

/-- The table of R80 read backwards: "the frame-opcode decoder" (R81). -/
def commandOfOpcode (b : Byte) : Option CommandId :=
  CommandId.all.find? (fun c => Config.OPC c == b)

/-- The frame opcode row of a CommandId. -/
def CommandId.frameInstr : CommandId → Instr
  | .paper => .paper
  | .getDeviceState => .getDeviceState
  | .quality => .quality
  | .energy => .energy
  | .lattice => .lattice
  | .printSpeed => .printSpeed
  | .printMode => .printMode
  | .bitmapData => .bitmapData

/-- A frame opcode byte as its row of the table (R81). -/
def decodeFrameOpcode (b : Byte) : Except Reject Instr :=
  match commandOfOpcode b with
  | some c => .ok c.frameInstr
  | none => .error .unknownFrameOpcode

/-- The decoder, total on every code. -/
def decode : Code → Except Reject Instr
  | .op w => decodeOp w
  | .frame b => decodeFrameOpcode b

/-! ### The encoder (R72 to R75) -/

/-- Format N (R72). -/
def formatN (op : Byte) : OpWord := op ++ 0#24

/-- Format B (R73), and format R (R75), which has the same fields. -/
def formatB (op : Byte) (imm8 : Byte) : OpWord := op ++ 0#16 ++ imm8

/-- Format F (R74). -/
def formatF (op : Byte) (cmd : CommandId) (len : Half) : OpWord := op ++ 0#5 ++ cmd.number ++ len

/-- The code of an instruction: its op word from the format diagrams of R72 to R75 with the `OP` column of R76, or its
frame opcode byte (R80). -/
def encode : Instr → Code
  | .nop => .op (formatN 0x00#8)
  | .srst => .op (formatN 0x01#8)
  | .rdreg reg => .op (formatB 0x02#8 reg)
  | .crcClr => .op (formatN 0x10#8)
  | .crcUpd imm8 => .op (formatB 0x11#8 imm8)
  | .crcTab imm8 => .op (formatB 0x12#8 imm8)
  | .frBegin cmd len => .op (formatF 0x20#8 cmd len)
  | .frData imm8 => .op (formatB 0x21#8 imm8)
  | .frAbort => .op (formatN 0x22#8)
  | .serClr => .op (formatN 0x30#8)
  | .serPix imm8 => .op (formatB 0x31#8 imm8)
  | .serEmit => .op (formatN 0x32#8)
  | .paper => .frame (Config.OPC .paper)
  | .getDeviceState => .frame (Config.OPC .getDeviceState)
  | .quality => .frame (Config.OPC .quality)
  | .energy => .frame (Config.OPC .energy)
  | .lattice => .frame (Config.OPC .lattice)
  | .printSpeed => .frame (Config.OPC .printSpeed)
  | .printMode => .frame (Config.OPC .printMode)
  | .bitmapData => .frame (Config.OPC .bitmapData)

/-- The op word of an instruction: what `fault_op` records when that instruction faults (60_exceptions.md R204). Every bit
of a legal word is fixed by its row or is an operand bit, so the word is `encode` of the instruction (DEDUCED, log entry
10). A frame opcode row has no op word and never faults; its byte is zero-extended here. -/
def Instr.opWord (i : Instr) : OpWord :=
  match encode i with
  | .op w => w
  | .frame b => b.zeroExtend 32

/-! ### Op words over a byte-wide link (20_memory.md R57) -/

/-- The four bytes of an op word, least significant byte first. -/
def OpWord.bytesLittle (w : OpWord) : List Byte :=
  [w.extractLsb' 0 8, w.extractLsb' 8 8, w.extractLsb' 16 8, w.extractLsb' 24 8]

/-- The bytes of an op word in the order they cross the link. -/
def linkBytes : ByteOrder → OpWord → List Byte
  | .little, w => OpWord.bytesLittle w
  | .big, w => (OpWord.bytesLittle w).reverse

/-- The op word that four bytes of the link carry; anything but four bytes is no op word. -/
def opWordOfLink : ByteOrder → List Byte → Option OpWord
  | .little, [b0, b1, b2, b3] => some (b3 ++ b2 ++ b1 ++ b0)
  | .big, [b0, b1, b2, b3] => some (b0 ++ b1 ++ b2 ++ b3)
  | _, _ => none

/-- The decoder of a byte list of the link, in either order. -/
def decodeLink (o : ByteOrder) (bs : List Byte) : Except Reject Instr :=
  match opWordOfLink o bs with
  | some w => decodeOp w
  | none => .error .notOneOpWord

/-- The decoder of a byte list of this platform's link, whose byte order the spec leaves open (R57; log entry 7). -/
def decodeBytes (bs : List Byte) : Except Reject Instr := decodeLink Config.opByteOrder bs

/-! ### The host's numbering of the table's words -/

/-- The code whose bits are `w`, for a row the table gives `nbits` bits: the frame opcode rows have 8, the op words 32. -/
def codeOfTable (nbits w : Nat) : Code :=
  if nbits ≤ 8 then .frame (BitVec.ofNat 8 w) else .op (BitVec.ofNat 32 w)

/-- The instruction the decoder reads from a row's bits. -/
def decodeTableWord (nbits w : Nat) : Option Instr :=
  match decode (codeOfTable nbits w) with
  | .ok i => some i
  | .error _ => none

end Sys2Proof
end

