-- ==== Sys2Proof/Machine/State.lean ====
section
/-! DEFINITION. The state of the block: every element of spec 10_state.md R22, the egress stream of 20_memory.md R53, the
ports of R49 as plain data, and the reset state of 70_reset_and_hazards.md R230. -/

namespace Sys2Proof.Machine

/-- The cause codes of 60_exceptions.md R200. The codes 0x6 to 0xF are "never recorded", so no constructor has one
(DEDUCED, log entry 13). The numbers are `Cause.code`. -/
inductive Cause where
  /-- No fault since reset. -/
  | none
  /-- An op word that decodes to no operation (R201). -/
  | illegalOp
  /-- RDREG of a reserved index (R202). -/
  | badReg
  /-- FR.BEGIN, SER.EMIT, CRC.CLR or CRC.UPD while a frame is open (R203). -/
  | frameBusy
  /-- FR.DATA while no frame is open (R203). -/
  | noFrame
  /-- SER.PIX on a full row (R203). -/
  | pixelOverflow
  deriving DecidableEq, Repr

/-- How a step can stop the model. The block's own faults (R200) are no such stop: they are next states. -/
inductive Fault where
  /-- Raised by SER.PIX when `ser_idx` is above `HRES`, where the dot to be written does not exist. R29 says `ser_idx` is
  "0 to HRES inclusive", so no run from reset gets there (`SerializerInv`). Safe: the model stops. DEDUCED, log entry 11. -/
  | rowIndexOutOfRange
  deriving DecidableEq, Repr

/-- How an instruction can be refused. -/
inductive Refusal where
  /-- An instruction without a meaning in the model. No arm of `exec` raises it: every row has its meaning. Safe. -/
  | notModelled (mnemonic : String)
  deriving DecidableEq, Repr

/-- One thing the host does, each a step of its own. -/
inductive Input where
  /-- The bits of one row of the opcode table: an op word on `OP_I` (R49), or a frame opcode byte that a reader of the
  emitted frames decodes (30_encoding.md R81). -/
  | code (c : Code)
  /-- `RESET_I` is asserted (70_reset_and_hazards.md R231). -/
  | resetI
  deriving DecidableEq, Repr

/-- The state. The fields down to `faultOp` are the table of R22, in its order. -/
structure State where
  /-- The CRC-8 accumulator, u8 (R23). -/
  crc : Byte
  /-- Whether a frame is open, u1 (R24). -/
  frBusy : Bool
  /-- The CommandId of the open or last frame, u3 (R25); its number is `CommandId.number`. -/
  frCmd : CommandId
  /-- The declared payload length of the open or last frame, u16 (R26). -/
  frLen : Half
  /-- The payload bytes the open frame still expects, u16 (R27). -/
  frRem : Half
  /-- The index of the next dot, u9 (R29). -/
  serIdx : BitVec 9
  /-- The row buffer (R30). -/
  row : Vector Byte Config.ROW_BYTES
  /-- The sticky fault flag, u1 (R32). -/
  fault : Bool
  /-- The cause of the first fault since reset, u4 (R33); its number is `Cause.code`. -/
  faultCause : Cause
  /-- The op word of the first fault since reset, u32 (R34). -/
  faultOp : OpWord
  /-- The bytes emitted so far, oldest first (20_memory.md R53). -/
  egress : List Byte
  /-- The response on `RSP_O` in the step just taken (R49). The model's own field: log entry 8. -/
  rsp : Option Half
  /-- What the host does next, the next input first (R49, R63, R231). The model's own field: log entry 1. -/
  inputs : List Input
  /-- The CommandId the frame-opcode decoder last gave a reader of emitted frames (30_encoding.md R81). The model's own
  field, outside the block: log entry 3. -/
  readerCmd : Option CommandId
  deriving DecidableEq, Repr

/-- The reset state: R230 for the elements of R22; `egress` "empty at power-on" (R53); no response (R230). No input and no
reader's answer: the model's own fields (DESIGN CHOICE, log entries 1 and 3). There is no
state before the first reset (R47; log entry 14). -/
def State.reset : State where
  crc := 0x00
  frBusy := false
  frCmd := .paper
  frLen := 0x0000
  frRem := 0x0000
  serIdx := 0
  row := Vector.replicate Config.ROW_BYTES 0x00
  fault := false
  faultCause := .none
  faultOp := 0x00000000
  egress := []
  rsp := none
  inputs := []
  readerCmd := none

end Sys2Proof.Machine
end

