-- ==== Sys2Proof/Machine/Wire.lean ====
section
/-! DEFINITION. The block's arithmetic and its wire format, as functions of bytes alone: the checksum (spec 40_crc.md
R100), the frame (41_framer.md R121, R126), what a reader of emitted frames reads (R127, 30_encoding.md R81), and the
packed row (42_serializer.md R150, R155). -/

namespace Sys2Proof.Machine

/-! ### Checksum -/

/-- One step of the checksum over a table `T`: `T[c ^ b]` (R100). -/
def crcStepWith (T : Byte → Byte) (c b : Byte) : Byte := T (c ^^^ b)

/-- The loop of R100 over `bs`, started from `c` instead of `CRC_INIT` (the loop of the concatenation law, R106). -/
def checksumFromWith (T : Byte → Byte) (c : Byte) (bs : List Byte) : Byte := bs.foldl (crcStepWith T) c

/-- `checksum` over a table `T` (R100; the table is the parameter of 00_scope.md R11). -/
def checksumWith (T : Byte → Byte) (bs : List Byte) : Byte := checksumFromWith T Config.CRC_INIT bs

/-- One step of the checksum with this hardware's table (R101). -/
def crcStep (c b : Byte) : Byte := crcStepWith Config.T c b

/-- The loop of R100 with this hardware's table. -/
def checksumFrom (c : Byte) (bs : List Byte) : Byte := checksumFromWith Config.T c bs

/-- `checksum(s)` (R100). -/
def checksum (bs : List Byte) : Byte := checksumWith Config.T bs

/-- The table-generating procedure printed with R101. -/
def generatedEntry (i : Byte) : Byte :=
  (List.range 8).foldl (fun c _ => if c.getLsbD 7 then (c <<< 1) ^^^ 0x07 else c <<< 1) i

/-! ### Frame -/

/-- The six header bytes: magic, opcode, direction, length little-endian (R121, R122; 20_memory.md R54). -/
def header (cmd : CommandId) (len : Half) : List Byte :=
  Config.MAGIC ++ [Config.OPC cmd, Config.DIR_TO_DEVICE, len.extractLsb' 0 8, len.extractLsb' 8 8]

/-- The two footer bytes: checksum, terminator (R121). -/
def footer (crc : Byte) : List Byte := [crc, Config.TERMINATOR]

/-- `encode(cmd, p)`: the whole frame of a command with payload `p` (R126). -/
def encodeFrame (cmd : CommandId) (p : List Byte) : List Byte :=
  header cmd (BitVec.ofNat 16 p.length) ++ p ++ footer (checksum p)

/-- Where a reader finds the end of the frame that starts at the first byte: the little-endian length at offsets 4 and 5,
plus 8 (R127). -/
def frameLength : List Byte → Option Nat
  | _ :: _ :: _ :: _ :: lo :: hi :: _ => some ((hi ++ lo).toNat + 8)
  | _ => none

/-- The CommandId a reader reads from the opcode byte at offset 2 (R121; 30_encoding.md R81). -/
def frameCommand (bs : List Byte) : Option CommandId := bs[2]?.bind commandOfOpcode

/-- The first frame of a byte stream and the bytes after it, by R127's rule; none where the bytes end before it does. -/
def nextFrame (bs : List Byte) : Option (List Byte × List Byte) :=
  match frameLength bs with
  | some n => if n ≤ bs.length then some (bs.take n, bs.drop n) else none
  | none => none

/-! ### Row -/

/-- A pixel is dark exactly when it is below `THRESHOLD` (R150), unsigned. -/
def isDark (pixel : Byte) : Bool := pixel.ult Config.THRESHOLD

/-- Whether dot `i` of a row built from the pixels `q` is dark; there is no dot where there is no pixel (R155). -/
def dotOfPixels (q : List Byte) (i : Nat) : Bool :=
  match q[i]? with
  | some p => isDark p
  | none => false

/-- `pack(q)`: bit `b` of byte `k` is dot `8*k + (7 - b)` (R155). -/
def pack (q : List Byte) : Vector Byte Config.ROW_BYTES :=
  Vector.ofFn (fun k => BitVec.ofFnLE (fun b : Fin 8 => dotOfPixels q (8 * k.val + (7 - b.val))))

/-- Dot `i` of a row: bit `7 - (i mod 8)` of byte `i div 8` (10_state.md R30); no dot beyond the row. -/
def dotOf (row : Vector Byte Config.ROW_BYTES) (i : Nat) : Bool :=
  match row[i / 8]? with
  | some b => b.getLsbD (7 - i % 8)
  | none => false

end Sys2Proof.Machine
end

