-- ==== Sys2Proof/Machine/Ops.lean ====
section
/-! DEFINITION. The named operations the meanings are built from: the pseudocode primitives of spec 00_scope.md R18, taking
a fault and gating (60_exceptions.md R204, R205), reset (70_reset_and_hazards.md R230), and taking the host's next input. -/

namespace Sys2Proof.Machine

/-! ### Response and egress (R18) -/

/-- A step that gives no response: `RSP_O` carries no value (10_state.md R49). -/
def State.quiet (s : State) : State := { s with rsp := none }

/-- `Respond(v)` (R18). -/
def State.respond (v : Half) (s : State) : State := { s with rsp := some v }

/-- `Emit(bs)`: append to the end of the egress stream (R18; 20_memory.md R53), which has room for every byte (R69; log
entry 4). -/
def State.emit (bs : List Byte) (s : State) : State := { s with egress := s.egress ++ bs }

/-! ### Checksum and payload streaming -/

/-- `crc <- CRC_INIT`. -/
def State.crcInit (s : State) : State := { s with crc := Config.CRC_INIT }

/-- `crc <- T[crc ^ b]`. -/
def State.crcAdd (b : Byte) (s : State) : State := { s with crc := crcStep s.crc b }

/-- Emit one payload byte and fold it into the checksum: the body shared by FR.DATA (41_framer.md R124) and the loop of
SER.EMIT (42_serializer.md R153). -/
def State.streamByte (s : State) (b : Byte) : State := (s.emit [b]).crcAdd b

/-- Stream bytes in order. -/
def State.streamBytes (bs : List Byte) (s : State) : State := bs.foldl State.streamByte s

/-! ### Row buffer -/

/-- Bit `k` of `b` assigned `v`, the other bits as they were. -/
def assignBit (b : Byte) (k : Nat) (v : Bool) : Byte :=
  if v then b ||| (1#8 <<< k) else b &&& ~~~(1#8 <<< k)

/-- `row[i div 8][7 - (i mod 8)] <- v`, and no other bit of the row (42_serializer.md R152). -/
def State.putDot (i : Nat) (h : i / 8 < Config.ROW_BYTES) (v : Bool) (s : State) : State :=
  { s with row := s.row.set (i / 8) (assignBit s.row[i / 8] (7 - i % 8) v) h }

/-- Every byte of the row 0x00 and `ser_idx` 0 (42_serializer.md R151). -/
def State.clearRow (s : State) : State :=
  { s with row := Vector.replicate Config.ROW_BYTES 0x00, serIdx := 0 }

/-! ### Reset (R230, R231) -/

/-- The reset of R230, by `RESET_I` or SRST: every element of R22 at its reset value, no response; the bytes in `egress`
stay, and so does what is outside the block (the host's further inputs, its reader's answer). It is also the only return
from a fault (60_exceptions.md R207). -/
def State.applyReset (s : State) : State :=
  { State.reset with egress := s.egress, inputs := s.inputs, readerCmd := s.readerCmd }

/-! ### Taking a fault (60_exceptions.md R204 to R207) -/

/-- An op word discarded while `fault` = 1: no effect, no byte, no response (R205). -/
def State.discard (s : State) : State := s.quiet

/-- `raise Fault(c)` with op word `w`: the fault entry of R204, which has no other effect and gives no response. While
`fault` = 1 there is no entry and the op word is discarded (R205, R207). -/
def State.raise (c : Cause) (w : OpWord) (s : State) : State :=
  if s.fault then s.discard
  else { s with fault := true, faultCause := c, faultOp := w, rsp := none }

/-- The gating of R205 for an operation that does not execute while `fault` = 1 (log entry 9). -/
def State.gated (s : State) (body : Host.Outcome State Fault Refusal) : Host.Outcome State Fault Refusal :=
  if s.fault then .next s.discard else body

/-- An illegal op word: ILLEGAL_OP, or discarded while `fault` = 1 (30_encoding.md R77; 60_exceptions.md R201, R205). -/
def State.illegalOp (w : OpWord) (s : State) : State := s.raise .illegalOp w

/-! ### Output level -/

/-- `FAULT_O`, "a level output equal to `fault`" (10_state.md R49; 60_exceptions.md R210). -/
def State.faultO (s : State) : Bool := s.fault

/-! ### A reader of emitted frames (30_encoding.md R81) -/

/-- The frame-opcode decoder answers a reader with a CommandId, or that the byte "names no command". The block itself takes
no part: nothing of R22 and nothing of `egress` changes, and no operation executes, so there is no response. -/
def State.readerAnswer (c : Option CommandId) (s : State) : State := { s with readerCmd := c, rsp := none }

/-! ### The host's next input -/

/-- What a step finds the host doing. -/
inductive Fetched where
  /-- A code that decodes to an instruction. -/
  | instr (i : Instr)
  /-- An op word that decodes to no operation (30_encoding.md R78). -/
  | illegal (w : OpWord)
  /-- A frame opcode byte that names no command (30_encoding.md R81). -/
  | noCommand
  /-- `RESET_I` asserted (70_reset_and_hazards.md R231). -/
  | resetI
  /-- The host does nothing. -/
  | idle
  deriving DecidableEq, Repr

/-- What the decoder makes of a code. -/
def fetchedOf (c : Code) : Fetched :=
  match decode c, c with
  | .ok i, _ => .instr i
  | .error _, .op w => .illegal w
  | .error _, .frame _ => .noCommand

/-- The host's next input, decoded, and the state with that input taken (R63: one at a time, in the order issued). -/
def State.fetch (s : State) : Fetched × State :=
  match s.inputs with
  | [] => (.idle, s)
  | .code c :: rest => (fetchedOf c, { s with inputs := rest })
  | .resetI :: rest => (.resetI, { s with inputs := rest })

/-- A step in which the host issues nothing: nothing happens and there is no response, as for the NOPs of "a host that
idles `OP_I` at zero" (43_control.md R180). DESIGN CHOICE, log entry 2. -/
def State.idleStep (s : State) : State := s.quiet

/-- A reader's byte that names no command (30_encoding.md R81). -/
def State.noCommand (s : State) : State := s.readerAnswer none

end Sys2Proof.Machine
end

