-- ==== Sys2Proof/Machine/Flags.lean ====
section
/-! DEFINITION. The status flags and the STATUS word (spec 10_state.md R37, R39). The block has no condition codes. -/

namespace Sys2Proof.Machine

/-- The 4-bit code of a cause (60_exceptions.md R200). -/
def Cause.code : Cause → BitVec 4
  | .none => 0x0
  | .illegalOp => 0x1
  | .badReg => 0x2
  | .frameBusy => 0x3
  | .noFrame => 0x4
  | .pixelOverflow => 0x5

/-- A flag as the 16-bit value its STATUS formula zero-extends. -/
def flagHalf (b : Bool) : Half := (BitVec.ofBool b).zeroExtend 16

/-- STATUS: `zext_16(fault_cause) << 8 | zext_16(fr_cmd) << 2 | zext_16(fault) << 1 | zext_16(fr_busy)` (R39). -/
def State.status (s : State) : Half :=
  (s.faultCause.code.zeroExtend 16 <<< 8) ||| (s.frCmd.number.zeroExtend 16 <<< 2) |||
    (flagHalf s.fault <<< 1) ||| flagHalf s.frBusy

end Sys2Proof.Machine
end

