-- ==== Sys2Proof/Machine/Operands.lean ====
section
/-! DEFINITION. The read index space (spec 10_state.md R38 to R46): which index names which register, and what each register
reads as. The other operand forms of the block are immediates, taken unchanged from their fields by the decoder (30_encoding.md
R82). -/

namespace Sys2Proof.Machine

/-- The registers of R38. -/
inductive Reg where
  | crc
  | status
  | frLen
  | frRem
  | serIdx
  | faultOpLo
  | faultOpHi
  | hres
  | thresh
  | row (k : Fin Config.ROW_BYTES)
  deriving DecidableEq, Repr

/-- The register a read index names, or none where the index is reserved (R38, R46). -/
def regOfIndex (index : Byte) : Option Reg :=
  match index.toNat with
  | 0x00 => some .crc
  | 0x01 => some .status
  | 0x02 => some .frLen
  | 0x03 => some .frRem
  | 0x04 => some .serIdx
  | 0x05 => some .faultOpLo
  | 0x06 => some .faultOpHi
  | 0x07 => some .hres
  | 0x08 => some .thresh
  | n => if h : 0x10 ≤ n ∧ n - 0x10 < Config.ROW_BYTES then some (.row ⟨n - 0x10, h.2⟩) else none

/-- The index of a register (R38; the numbers behind the names of 30_encoding.md R84). -/
def Reg.index : Reg → Byte
  | .crc => 0x00
  | .status => 0x01
  | .frLen => 0x02
  | .frRem => 0x03
  | .serIdx => 0x04
  | .faultOpLo => 0x05
  | .faultOpHi => 0x06
  | .hres => 0x07
  | .thresh => 0x08
  | .row k => BitVec.ofNat 8 (0x10 + k.val)

/-- What a register reads as (R39 to R45). Reading changes nothing (20_memory.md R61). -/
def State.readReg (r : Reg) (s : State) : Half :=
  match r with
  | .crc => s.crc.zeroExtend 16
  | .status => s.status
  | .frLen => s.frLen
  | .frRem => s.frRem
  | .serIdx => s.serIdx.zeroExtend 16
  | .faultOpLo => s.faultOp.extractLsb' 0 16
  | .faultOpHi => s.faultOp.extractLsb' 16 16
  | .hres => BitVec.ofNat 16 Config.HRES
  | .thresh => Config.THRESHOLD.zeroExtend 16
  | .row k => s.row[k].zeroExtend 16

end Sys2Proof.Machine
end

