-- ==== Sys2Proof/Machine/Control.lean ====
section
/-! DEFINITION. The control operations (spec 43_control.md). -/

namespace Sys2Proof.Machine

/-- NOP: no effect, whether or not `fault` is set (R180). -/
def execNop (s : State) : Host.Outcome State Fault Refusal := .next s.quiet

/-- SRST: the reset of 70_reset_and_hazards.md R230, whether or not `fault` is set (R181). -/
def execSrst (s : State) : Host.Outcome State Fault Refusal := .next s.applyReset

/-- RDREG: the response is the register's value; a reserved index raises BAD_REG, which is discarded while `fault` = 1
(R182; 60_exceptions.md R202, R205). -/
def execRdreg (reg : Byte) (s : State) : Host.Outcome State Fault Refusal :=
  match regOfIndex reg with
  | some r => .next (s.respond (s.readReg r))
  | none => .next (s.raise .badReg (Instr.rdreg reg).opWord)

end Sys2Proof.Machine
end

