-- ==== Sys2Proof/Machine/Crc.lean ====
section
/-! DEFINITION. The CRC-8 engine's operations (spec 40_crc.md section 2). -/

namespace Sys2Proof.Machine

/-- CRC.CLR: clear the accumulator (R103). -/
def execCrcClr (s : State) : Host.Outcome State Fault Refusal :=
  s.gated <|
    if s.frBusy then .next (s.raise .frameBusy Instr.crcClr.opWord)
    else .next s.crcInit.quiet

/-- CRC.UPD: add one byte to the checksum (R104). -/
def execCrcUpd (imm8 : Byte) (s : State) : Host.Outcome State Fault Refusal :=
  s.gated <|
    if s.frBusy then .next (s.raise .frameBusy (Instr.crcUpd imm8).opWord)
    else .next (s.crcAdd imm8).quiet

/-- CRC.TAB: respond one table entry; no state is written, and an open frame does not matter (R105). -/
def execCrcTab (imm8 : Byte) (s : State) : Host.Outcome State Fault Refusal :=
  s.gated <| .next (s.respond ((Config.T imm8).zeroExtend 16))

end Sys2Proof.Machine
end

