-- ==== Sys2Proof/Machine/FrameOpcode.lean ====
section
/-! DEFINITION. The frame opcode rows of the opcode table (spec 30_encoding.md R80, R81). The block emits these bytes through
FR.BEGIN and SER.EMIT and never decodes them. What the spec gives them beyond that is the table of R80 "read backwards": "the
frame-opcode decoder ... which a reader of emitted frames can use". That reading is their meaning here: the reader learns the
CommandId, and the block does not change. What the printer does with a frame is outside the spec (00_scope.md R4). Log entry
3. -/

namespace Sys2Proof.Machine

/-- Frame opcode 0xA1: the reader's byte names the command Paper (R80, R81). -/
def execPaper (s : State) : Host.Outcome State Fault Refusal := .next (s.readerAnswer (some .paper))

/-- Frame opcode 0xA3: the reader's byte names the command GetDeviceState (R80, R81). -/
def execGetDeviceState (s : State) : Host.Outcome State Fault Refusal := .next (s.readerAnswer (some .getDeviceState))

/-- Frame opcode 0xA4: the reader's byte names the command Quality (R80, R81). -/
def execQuality (s : State) : Host.Outcome State Fault Refusal := .next (s.readerAnswer (some .quality))

/-- Frame opcode 0xAF: the reader's byte names the command Energy (R80, R81). -/
def execEnergy (s : State) : Host.Outcome State Fault Refusal := .next (s.readerAnswer (some .energy))

/-- Frame opcode 0xA6: the reader's byte names the command Lattice (R80, R81). -/
def execLattice (s : State) : Host.Outcome State Fault Refusal := .next (s.readerAnswer (some .lattice))

/-- Frame opcode 0xBD: the reader's byte names the command PrintSpeed (R80, R81). -/
def execPrintSpeed (s : State) : Host.Outcome State Fault Refusal := .next (s.readerAnswer (some .printSpeed))

/-- Frame opcode 0xBE: the reader's byte names the command PrintMode (R80, R81). -/
def execPrintMode (s : State) : Host.Outcome State Fault Refusal := .next (s.readerAnswer (some .printMode))

/-- Frame opcode 0xA2: the reader's byte names the command BitmapData (R80, R81). -/
def execBitmapData (s : State) : Host.Outcome State Fault Refusal := .next (s.readerAnswer (some .bitmapData))

end Sys2Proof.Machine
end

