-- ==== Sys2Proof/Machine/Framer.lean ====
section
/-! DEFINITION. The packet framer's operations (spec 41_framer.md section 2). -/

namespace Sys2Proof.Machine

/-- FR.BEGIN: open a frame and emit its header; with `len` = 0 emit the whole frame and stay idle (R123). -/
def execFrBegin (cmd : CommandId) (len : Half) (s : State) : Host.Outcome State Fault Refusal :=
  s.gated <|
    if s.frBusy then .next (s.raise .frameBusy (Instr.frBegin cmd len).opWord)
    else
      let opened := { (s.emit (header cmd len)).crcInit with frCmd := cmd, frLen := len }
      if len = 0 then .next { opened.emit (footer opened.crc) with frRem := 0, frBusy := false, rsp := none }
      else .next { opened with frRem := len, frBusy := true, rsp := none }

/-- FR.DATA: emit one payload byte; the last declared one also emits the checksum and the terminator and closes the frame
(R124). `fr_rem` is at least 1 here by 10_state.md R28 (log entry 12). -/
def execFrData (imm8 : Byte) (s : State) : Host.Outcome State Fault Refusal :=
  s.gated <|
    if s.frBusy then
      let sent := { s.streamByte imm8 with frRem := s.frRem - 1 }
      if sent.frRem = 0 then .next { sent.emit (footer sent.crc) with frBusy := false, rsp := none }
      else .next sent.quiet
    else .next (s.raise .noFrame (Instr.frData imm8).opWord)

/-- FR.ABORT: abandon an open frame and emit nothing; with no frame open it changes nothing (R125). -/
def execFrAbort (s : State) : Host.Outcome State Fault Refusal :=
  s.gated <|
    if s.frBusy then .next { s with frBusy := false, frRem := 0, rsp := none }
    else .next s.quiet

end Sys2Proof.Machine
end

