-- ==== Sys2Proof/Machine/Serializer.lean ====
section
/-! DEFINITION. The bitmap row serializer's operations (spec 42_serializer.md section 2). -/

namespace Sys2Proof.Machine

/-- SER.CLR: clear the row; an open frame does not matter (R151). -/
def execSerClr (s : State) : Host.Outcome State Fault Refusal :=
  s.gated <| .next s.clearRow.quiet

/-- SER.PIX: threshold one pixel into the next dot; a full row raises PIXEL_OVERFLOW; an open frame does not matter (R152).
The last arm is for `ser_idx` above `HRES`, which R29 says does not occur (log entry 11). -/
def execSerPix (imm8 : Byte) (s : State) : Host.Outcome State Fault Refusal :=
  s.gated <|
    if s.serIdx.toNat = Config.HRES then .next (s.raise .pixelOverflow (Instr.serPix imm8).opWord)
    else if h : s.serIdx.toNat / 8 < Config.ROW_BYTES then
      .next { s.putDot s.serIdx.toNat h (isDark imm8) with serIdx := s.serIdx + 1, rsp := none }
    else .fault .rowIndexOutOfRange

/-- SER.EMIT: send the row as one BitmapData frame and clear it (R153). -/
def execSerEmit (s : State) : Host.Outcome State Fault Refusal :=
  s.gated <|
    if s.frBusy then .next (s.raise .frameBusy Instr.serEmit.opWord)
    else
      let len : Half := BitVec.ofNat 16 Config.ROW_BYTES
      let sent := (s.emit (header .bitmapData len)).crcInit.streamBytes s.row.toList
      let closed := { sent.emit (footer sent.crc) with frCmd := .bitmapData, frLen := len, frRem := 0 }
      .next closed.clearRow.quiet

end Sys2Proof.Machine
end

