-- ==== Sys2Proof/Machine/Dispatch.lean ====
section
/-! DEFINITION. One arm per row of spec/opcode_table.json, each one call of its meaning. -/

namespace Sys2Proof.Machine

def exec (i : Instr) (s : State) : Host.Outcome State Fault Refusal :=
  match i with
  | .nop => Sys2Proof.Machine.execNop s
  | .srst => Sys2Proof.Machine.execSrst s
  | .rdreg reg => Sys2Proof.Machine.execRdreg reg s
  | .crcClr => Sys2Proof.Machine.execCrcClr s
  | .crcUpd imm8 => Sys2Proof.Machine.execCrcUpd imm8 s
  | .crcTab imm8 => Sys2Proof.Machine.execCrcTab imm8 s
  | .frBegin cmd len => Sys2Proof.Machine.execFrBegin cmd len s
  | .frData imm8 => Sys2Proof.Machine.execFrData imm8 s
  | .frAbort => Sys2Proof.Machine.execFrAbort s
  | .serClr => Sys2Proof.Machine.execSerClr s
  | .serPix imm8 => Sys2Proof.Machine.execSerPix imm8 s
  | .serEmit => Sys2Proof.Machine.execSerEmit s
  | .paper => Sys2Proof.Machine.execPaper s
  | .getDeviceState => Sys2Proof.Machine.execGetDeviceState s
  | .quality => Sys2Proof.Machine.execQuality s
  | .energy => Sys2Proof.Machine.execEnergy s
  | .lattice => Sys2Proof.Machine.execLattice s
  | .printSpeed => Sys2Proof.Machine.execPrintSpeed s
  | .printMode => Sys2Proof.Machine.execPrintMode s
  | .bitmapData => Sys2Proof.Machine.execBitmapData s

end Sys2Proof.Machine
end

