-- ==== Sys2Proof/Machine/Step.lean ====
section
/-! DEFINITION. One step of the machine (spec 00_scope.md R5; 60_exceptions.md R205; 70_reset_and_hazards.md R231): take the
host's next input and do what it says. The gating of R205 stands in the meanings and in `State.raise`
(log entry 9). A `RESET_I` assertion is a step of its own (R231; log entry 16), and no step takes time (R247; log entry 15). -/

namespace Sys2Proof.Machine

def step (s : State) : Host.Outcome State Fault Refusal :=
  match s.fetch with
  | (.instr i, t) => exec i t
  | (.illegal w, t) => .next (t.illegalOp w)
  | (.noCommand, t) => .next t.noCommand
  | (.resetI, t) => .next t.applyReset
  | (.idle, t) => .next t.idleStep

/-- The state in which the host's very next input is the row's code: log entry 1 says how a program comes to run. -/
def State.withFetchWord (s : State) (nbits w : Nat) : State :=
  { s with inputs := .code (codeOfTable nbits w) :: s.inputs }

end Sys2Proof.Machine
end

