-- ==== Sys2Proof/Machine/Assembler.lean ====
section
/-! DEFINITION. The assembler of spec 30_encoding.md section 5: operand ranges (R83), register and command names (R84, R85),
pseudo-instructions (R86), and one line of text. It is the host's tool, outside the block: no step depends on it. What R83
leaves open about a line's text is log entry 18. -/

namespace Sys2Proof.Machine

/-! ### Operations and pseudo-instructions -/

/-- The instruction an assembler term stands for; an out-of-range number is an assembly error (R83). -/
def assembleOp (a : AsmOp) : Option Instr :=
  if a.wf then
    some (match a with
      | .nop => .nop
      | .srst => .srst
      | .rdreg reg => .rdreg (BitVec.ofNat 8 reg)
      | .crcClr => .crcClr
      | .crcUpd imm8 => .crcUpd (BitVec.ofNat 8 imm8)
      | .crcTab imm8 => .crcTab (BitVec.ofNat 8 imm8)
      | .frBegin cmd len => .frBegin (CommandId.ofNumber (BitVec.ofNat 3 cmd)) (BitVec.ofNat 16 len)
      | .frData imm8 => .frData (BitVec.ofNat 8 imm8)
      | .frAbort => .frAbort
      | .serClr => .serClr
      | .serPix imm8 => .serPix (BitVec.ofNat 8 imm8)
      | .serEmit => .serEmit)
  else none

/-- The sequence a pseudo-instruction expands to, under the condition of its row (R86). -/
def expandPseudo (p : Pseudo) : Option (List AsmOp) :=
  if p.wf then
    some (match p with
      | .crcBytes bytes => .crcClr :: bytes.map .crcUpd
      | .frFrame cmd bytes => .frBegin cmd bytes.length :: bytes.map .frData
      | .serRow pixels => .serClr :: (pixels.map .serPix ++ [.serEmit])
      | .rdrow k => [.rdreg (0x10 + k)])
  else none

/-- The instructions of a pseudo-instruction. -/
def assemblePseudo (p : Pseudo) : Option (List Instr) :=
  (expandPseudo p).bind (fun as => as.mapM assembleOp)

/-! ### Text -/

/-- The value of a digit character in a base up to 16. -/
def digitValue (base : Nat) (c : Char) : Option Nat :=
  let v := if c.isDigit then c.toNat - '0'.toNat
    else if 'a' ≤ c && c ≤ 'f' then c.toNat - 'a'.toNat + 10
    else if 'A' ≤ c && c ≤ 'F' then c.toNat - 'A'.toNat + 10
    else 16
  if v < base then some v else none

/-- At least one digit, most significant first. -/
def digitsValue (base : Nat) : List Char → Option Nat
  | [] => none
  | cs => cs.foldlM (fun n c => (digitValue base c).map (fun v => n * base + v)) 0

/-- A number: decimal, `0x` hexadecimal or `0b` binary (R83). -/
def numberOf : List Char → Option Nat
  | '0' :: 'x' :: cs => digitsValue 16 cs
  | '0' :: 'b' :: cs => digitsValue 2 cs
  | cs => digitsValue 10 cs

/-- The register a name of R84 stands for. -/
def regOfName (cs : List Char) : Option Reg :=
  match String.ofList cs with
  | "crc" => some .crc
  | "status" => some .status
  | "fr_len" => some .frLen
  | "fr_rem" => some .frRem
  | "ser_idx" => some .serIdx
  | "fault_op_lo" => some .faultOpLo
  | "fault_op_hi" => some .faultOpHi
  | "hres" => some .hres
  | "thresh" => some .thresh
  | _ =>
    match cs with
    | 'r' :: 'o' :: 'w' :: ds =>
      (digitsValue 10 ds).bind (fun k => if h : k < Config.ROW_BYTES then some (.row ⟨k, h⟩) else none)
    | _ => none

/-- The command a name of R85 stands for. -/
def commandOfName (cs : List Char) : Option CommandId :=
  match String.ofList cs with
  | "paper" => some .paper
  | "getdevicestate" => some .getDeviceState
  | "quality" => some .quality
  | "energy" => some .energy
  | "lattice" => some .lattice
  | "printspeed" => some .printSpeed
  | "printmode" => some .printMode
  | "bitmapdata" => some .bitmapData
  | _ => none

/-- A `<reg>` operand: a number, or a name of R84 (R83). -/
def regOperand (cs : List Char) : Option Nat :=
  match numberOf cs with
  | some n => some n
  | none => (regOfName cs).map (fun r => r.index.toNat)

/-- A `<cmd>` operand: a number, or a name of R85 (R83). -/
def cmdOperand (cs : List Char) : Option Nat :=
  match numberOf cs with
  | some n => some n
  | none => (commandOfName cs).map (fun c => c.number.toNat)

/-- Blank characters between the words of a line. -/
def isBlank (c : Char) : Bool := c == ' ' || c == '\t'

/-- A word without the blanks around it. -/
def trimBlanks (cs : List Char) : List Char :=
  ((cs.dropWhile isBlank).reverse.dropWhile isBlank).reverse

/-- The pieces of a text between its commas. -/
def splitCommas : List Char → List (List Char)
  | [] => [[]]
  | c :: cs =>
    match splitCommas cs with
    | [] => [[c]]
    | w :: ws => if c == ',' then [] :: w :: ws else (c :: w) :: ws

/-- The operands of a line: none where the text is blank, else the pieces between commas. -/
def operandsOf (cs : List Char) : List (List Char) :=
  if (trimBlanks cs).isEmpty then [] else (splitCommas cs).map trimBlanks

/-- What one line holds. R83 says "one operation per line" and leaves open whether a line may hold none: that a blank or
comment-only line is `empty` and no error is the model's choice (DESIGN CHOICE, log entry 18). -/
inductive Line where
  | empty
  | op (a : AsmOp)
  | pseudo (p : Pseudo)
  deriving DecidableEq, Repr

/-- The line a mnemonic and its operands make (R83, R86); none is an assembly error of form. -/
def lineOf (mnemonic : String) (ops : List (List Char)) : Option Line :=
  match mnemonic, ops with
  | "nop", [] => some (.op .nop)
  | "srst", [] => some (.op .srst)
  | "crc.clr", [] => some (.op .crcClr)
  | "fr.abort", [] => some (.op .frAbort)
  | "ser.clr", [] => some (.op .serClr)
  | "ser.emit", [] => some (.op .serEmit)
  | "rdreg", [r] => (regOperand r).map (fun n => .op (.rdreg n))
  | "crc.upd", [b] => (numberOf b).map (fun n => .op (.crcUpd n))
  | "crc.tab", [b] => (numberOf b).map (fun n => .op (.crcTab n))
  | "fr.data", [b] => (numberOf b).map (fun n => .op (.frData n))
  | "ser.pix", [b] => (numberOf b).map (fun n => .op (.serPix n))
  | "fr.begin", [c, l] => (cmdOperand c).bind (fun c => (numberOf l).map (fun l => .op (.frBegin c l)))
  | "crc.bytes", bs => (bs.mapM numberOf).map (fun bs => .pseudo (.crcBytes bs))
  | "fr.frame", c :: bs =>
    (cmdOperand c).bind (fun c => (bs.mapM numberOf).map (fun bs => .pseudo (.frFrame c bs)))
  | "ser.row", ps => (ps.mapM numberOf).map (fun ps => .pseudo (.serRow ps))
  | "rdrow", [k] => (numberOf k).map (fun k => .pseudo (.rdrow k))
  | _, _ => none

/-- One line of text: `;` starts a comment, the mnemonic is case-insensitive, operands are separated by commas (R83).
A line that is blank or holds only a comment is accepted as `empty` (DESIGN CHOICE, log entry 18). -/
def parseLine (text : List Char) : Option Line :=
  let body := trimBlanks (text.takeWhile (fun c => c != ';'))
  let mnemonic := body.takeWhile (fun c => !isBlank c)
  let rest := body.dropWhile (fun c => !isBlank c)
  if body.isEmpty then some .empty
  else lineOf (String.ofList (mnemonic.map Char.toLower)) (operandsOf rest)

/-- The instructions a line of text assembles to; none is an assembly error. An empty line assembles to no instruction
(DESIGN CHOICE, log entry 18). -/
def assembleLine (text : List Char) : Option (List Instr) :=
  match parseLine text with
  | some .empty => some []
  | some (.op a) => (assembleOp a).map (fun i => [i])
  | some (.pseudo p) => assemblePseudo p
  | none => none

end Sys2Proof.Machine
end

