-- ==== Sys2Proof/Safety.lean ====
section
/-! DEFINITION. The words claims are stated in: runs of operations, the invariants the spec gives (10_state.md R28, R31; R33
and R34 with 60_exceptions.md R200), and what counts as a safe run (60_exceptions.md R208). -/

namespace Sys2Proof.Machine

/-! ### Runs of operations -/

/-- The operations of a list executed in order (20_memory.md R63), up to the first stop of the model. -/
def execAll : List Instr → State → Host.Outcome State Fault Refusal
  | [], s => .next s
  | i :: is, s =>
    match exec i s with
    | .next t => execAll is t
    | .fault r => .fault r
    | .refused r => .refused r

/-- A safe run (R208): the model does not stop, and "no fault recorded" holds at its end. -/
def SafeRun (is : List Instr) (s t : State) : Prop := execAll is s = .next t ∧ t.fault = false

/-- The operations that R128 lets come between a frame's FR.BEGIN and its FR.DATA operations (log entry 17). -/
def leavesFrameAlone : Instr → Bool
  | .nop | .rdreg _ | .crcTab _ | .serClr | .serPix _ => true
  | _ => false

/-- The operations that neither emit nor touch the serializer (42_serializer.md R154), SRST apart, which resets it
(log entry 17). -/
def leavesRowAlone : Instr → Bool
  | .nop | .rdreg _ | .crcClr | .crcUpd _ | .crcTab _ | .frAbort => true
  | _ => false

/-- Operations that carry one byte each, every one after some other operations. -/
def weave (mk : Byte → Instr) (parts : List (List Instr × Byte)) : List Instr :=
  parts.flatMap (fun part => part.1 ++ [mk part.2])

/-! ### Invariants -/

/-- The framer invariant of R28, its three points in order. The payload `p` is what stands in `egress` after the open
frame's header. -/
def FramerInv (s : State) : Prop :=
  (s.frBusy = false → s.frRem = 0) ∧
  (s.frBusy = true → 1 ≤ s.frRem.toNat ∧ s.frRem.toNat ≤ s.frLen.toNat) ∧
  (s.frBusy = true → ∃ before p : List Byte,
    s.egress = before ++ header s.frCmd s.frLen ++ p ∧
    p.length = s.frLen.toNat - s.frRem.toNat ∧
    s.crc = checksum p)

/-- The serializer invariant of R31, with the range of `ser_idx` that R29 states. -/
def SerializerInv (s : State) : Prop :=
  s.serIdx.toNat ≤ Config.HRES ∧
  ∀ i, s.serIdx.toNat ≤ i → i < Config.HRES → dotOf s.row i = false

/-- Whether an op word can have raised a cause (the "raised by" column of R200). -/
def causeFits (c : Cause) (w : OpWord) : Bool :=
  match c, decodeOp w with
  | .illegalOp, .error _ => true
  | .badReg, .ok (.rdreg reg) => (regOfIndex reg).isNone
  | .frameBusy, .ok (.frBegin _ _) => true
  | .frameBusy, .ok .serEmit => true
  | .frameBusy, .ok .crcClr => true
  | .frameBusy, .ok (.crcUpd _) => true
  | .noFrame, .ok (.frData _) => true
  | .pixelOverflow, .ok (.serPix _) => true
  | _, _ => false

/-- The fault record: NONE and a zero word while `fault` = 0 (R33, R34); while `fault` = 1 a cause of R200 and a word that
can raise it. -/
def FaultInv (s : State) : Prop :=
  (s.fault = false → s.faultCause = .none ∧ s.faultOp = 0) ∧
  (s.fault = true → causeFits s.faultCause s.faultOp = true)

/-- The whole invariant of the block. -/
def StateInv (s : State) : Prop := FramerInv s ∧ SerializerInv s ∧ FaultInv s

end Sys2Proof.Machine
end

