-- ==== Sys2Proof/Certificates/Slice0/Obligations.lean ====
section
/-! DEFINITION. The statements for the provers, in the order of OBLIGATIONS.json. Each docstring names the rule of spec/ it
formalises. -/

open Sys2Proof Sys2Proof.Machine

/-! ### Encoding -/

/-- Every instruction decodes from its own encoding (30_encoding.md R72 to R76, R80 to R82). -/
def Obligations.DecodeOfEncode : Prop :=
  ∀ i : Instr, decode (encode i) = .ok i

/-- A code that decodes is the encoding of what it decodes to: no bit of a legal code is dropped, and `fault_op` is the op
word the host issued (R72 to R78; log entry 10). -/
def Obligations.EncodeOfDecode : Prop :=
  ∀ (c : Code) (i : Instr), decode c = .ok i → encode i = c

/-- R77: at most one row of the operation map matches, the decoder selects it, and a word that no row matches executes as
the fault ILLEGAL_OP, subject to the gating of R205. -/
def Obligations.DecoderSelectsTheRow : Prop :=
  (opRows.map (fun r => majorOf r.bits)).Nodup ∧
  (∀ r ∈ opRows, majorOf r.mask = 0xFF) ∧
  ∀ w : OpWord,
    (opRows.filter (fun r => w &&& r.mask == r.bits)).length ≤ 1 ∧
    (∀ r ∈ opRows, w &&& r.mask = r.bits → decodeOp w = .ok (r.build w)) ∧
    ((∀ r ∈ opRows, w &&& r.mask ≠ r.bits) → ∀ (s : State) (rest : List Input), s.inputs = .code (.op w) :: rest →
      step s = .next
        (if s.fault then { s with inputs := rest, rsp := none }
        else { s with inputs := rest, rsp := none, fault := true, faultCause := .illegalOp, faultOp := w }))

/-- R78: exactly which words are illegal, what an illegal word does, and that a reserved read index is no illegal
encoding. -/
def Obligations.IllegalWords : Prop :=
  (∀ w : OpWord, (∃ e, decodeOp w = .error e) ↔
    ¬ ((majorOf w ∈ [0x00#8, 0x01#8, 0x10#8, 0x22#8, 0x30#8, 0x32#8] ∧ w.extractLsb' 0 24 = 0) ∨
      (majorOf w ∈ [0x02#8, 0x11#8, 0x12#8, 0x21#8, 0x31#8] ∧ w.extractLsb' 8 16 = 0) ∨
      (majorOf w = 0x20#8 ∧ w.extractLsb' 19 5 = 0))) ∧
  (∀ (w : OpWord) (e : Reject) (s : State) (rest : List Input), decodeOp w = .error e → s.fault = false →
    s.inputs = .code (.op w) :: rest →
    step s = .next
      { s with inputs := rest, rsp := none, fault := true, faultCause := .illegalOp, faultOp := w }) ∧
  (∀ (reg : Byte) (s : State), regOfIndex reg = none → s.fault = false →
    decodeOp (0x02000000#32 ||| reg.zeroExtend 32) = .ok (.rdreg reg) ∧
    exec (.rdreg reg) s = .next
      { s with fault := true, faultCause := .badReg, faultOp := 0x02000000#32 ||| reg.zeroExtend 32, rsp := none })

/-- R82: every operand is its field of the op word, unchanged. -/
def Obligations.OperandFields : Prop :=
  ∀ w : OpWord,
    (∀ reg, decodeOp w = .ok (.rdreg reg) → reg.toNat = w.toNat % 256) ∧
    (∀ imm8, decodeOp w = .ok (.crcUpd imm8) ∨ decodeOp w = .ok (.crcTab imm8) ∨ decodeOp w = .ok (.frData imm8) ∨
      decodeOp w = .ok (.serPix imm8) → imm8.toNat = w.toNat % 256) ∧
    (∀ cmd len, decodeOp w = .ok (.frBegin cmd len) →
      cmd.number.toNat = w.toNat / 65536 % 8 ∧ len.toNat = w.toNat % 65536)

/-- A few words written out from R76 and R80, and two illegal ones (95_test_vectors.md V-K5, V-K6). -/
def Obligations.SampleWordsDecode : Prop :=
  decode (.op 0x00000000) = .ok .nop ∧
  decode (.op 0x0200003F) = .ok (.rdreg 0x3F) ∧
  decode (.op 0x110000AB) = .ok (.crcUpd 0xAB) ∧
  decode (.op 0x2005FF01) = .ok (.frBegin .printSpeed 0xFF01) ∧
  decode (.op 0x31000080) = .ok (.serPix 0x80) ∧
  decode (.frame 0xAF) = .ok .energy ∧
  decode (.op 0x00000001) = .error .reservedBits ∧
  decode (.op 0x20080000) = .error .reservedBits ∧
  decode (.op 0x03000000) = .error .unassignedOpcode ∧
  decode (.frame 0xA5) = .error .unknownFrameOpcode

/-- R79 and R80: the numbers and the opcode bytes of the eight commands; every 3-bit value is assigned; the opcode mapping
is one-to-one and reads backwards. -/
def Obligations.CommandNumbersAndOpcodes : Prop :=
  CommandId.all.map CommandId.number = [0, 1, 2, 3, 4, 5, 6, 7] ∧
  CommandId.all.map Config.OPC = [0xA1, 0xA3, 0xA4, 0xAF, 0xA6, 0xBD, 0xBE, 0xA2] ∧
  CommandId.all =
    [.paper, .getDeviceState, .quality, .energy, .lattice, .printSpeed, .printMode, .bitmapData] ∧
  (∀ n : BitVec 3, (CommandId.ofNumber n).number = n) ∧
  (∀ c d : CommandId, Config.OPC c = Config.OPC d → c = d) ∧
  (∀ (b : Byte) (c : CommandId), commandOfOpcode b = some c ↔ Config.OPC c = b)

/-- R57: whichever byte order a byte-wide link takes (`OP_BYTE_ORDER` is open), an op word's bytes carry the word; any other
number of bytes is rejected by name; and so it is on this platform's link. -/
def Obligations.LinkBytesCarryTheWord : Prop :=
  (∀ o : ByteOrder,
    (∀ w : OpWord, (linkBytes o w).length = 4 ∧ opWordOfLink o (linkBytes o w) = some w ∧
      decodeLink o (linkBytes o w) = decodeOp w) ∧
    (∀ bs : List Byte, bs.length ≠ 4 → decodeLink o bs = .error .notOneOpWord)) ∧
  (∀ w : OpWord, decodeBytes (linkBytes Config.opByteOrder w) = decodeOp w)

/-! ### Steps -/

/-- A step whose input decodes executes the decoded instruction, on the state with that input taken (20_memory.md R63;
60_exceptions.md R205; log entry 1). -/
def Obligations.StepRunsTheDecodedInstruction : Prop :=
  ∀ (s : State) (c : Code) (rest : List Input) (i : Instr), s.inputs = .code c :: rest → decode c = .ok i →
    step s = exec i { s with inputs := rest }

/-- The steps in which no instruction executes: the host does nothing (DESIGN CHOICE, log entry 2), or a reader's byte names
no command (30_encoding.md R81; DESIGN CHOICE, log entry 3). -/
def Obligations.StepWithoutInstruction : Prop :=
  (∀ s : State, s.inputs = [] → step s = .next { s with rsp := none }) ∧
  (∀ (s : State) (b : Byte) (rest : List Input), s.inputs = .code (.frame b) :: rest → (∀ c, Config.OPC c ≠ b) →
    step s = .next { s with inputs := rest, readerCmd := none, rsp := none })

/-- The reset values of 10_state.md R22, and an empty egress stream (20_memory.md R53). -/
def Obligations.ResetStateValues : Prop :=
  State.reset.crc = 0x00 ∧ State.reset.frBusy = false ∧ State.reset.frCmd.number = 0 ∧ State.reset.frLen = 0x0000 ∧
  State.reset.frRem = 0x0000 ∧ State.reset.serIdx = 0 ∧ (∀ k : Fin Config.ROW_BYTES, State.reset.row[k] = 0x00) ∧
  State.reset.fault = false ∧ State.reset.faultCause.code = 0x0 ∧ State.reset.faultOp = 0x00000000 ∧
  State.reset.egress = []

/-- R230, R231: `RESET_I` is a step of its own and SRST an operation step; each gives every element its reset value, in
every state, and leaves `egress` alone. -/
def Obligations.ResetEffect : Prop :=
  (∀ (s : State) (rest : List Input), s.inputs = .resetI :: rest →
    step s = .next
      { s with
        inputs := rest, crc := 0x00, frBusy := false, frCmd := .paper, frLen := 0x0000, frRem := 0x0000, serIdx := 0,
        row := Vector.replicate Config.ROW_BYTES 0x00, fault := false, faultCause := .none, faultOp := 0x00000000,
        rsp := none }) ∧
  (∀ s : State,
    exec .srst s = .next
      { s with
        crc := 0x00, frBusy := false, frCmd := .paper, frLen := 0x0000, frRem := 0x0000, serIdx := 0,
        row := Vector.replicate Config.ROW_BYTES 0x00, fault := false, faultCause := .none, faultOp := 0x00000000,
        rsp := none })

/-! ### Control operations (43_control.md) -/

/-- R180: NOP's word, its effect in every state, and the illegal words beside it. -/
def Obligations.NopDoesNothing : Prop :=
  encode .nop = .op 0x00000000 ∧
  (∀ w : OpWord, majorOf w = 0x00 → w ≠ 0x00000000 → decodeOp w = .error .reservedBits) ∧
  (∀ s : State, exec .nop s = .next { s with rsp := none })

/-- R181: SRST's word, its effect in every state (faulted or not), the illegal words beside it, and that no other operation
clears a fault. -/
def Obligations.SrstResets : Prop :=
  encode .srst = .op 0x01000000 ∧
  (∀ w : OpWord, majorOf w = 0x01 → w ≠ 0x01000000 → decodeOp w = .error .reservedBits) ∧
  (∀ s : State,
    exec .srst s = .next
      { State.reset with egress := s.egress, inputs := s.inputs, readerCmd := s.readerCmd }) ∧
  (∀ (i : Instr) (s t : State), s.fault = true → exec i s = .next t → t.fault = false → i = .srst)

/-- R182: RDREG's word, what each index responds, the fault of a reserved index, its discard while `fault` = 1, and the
illegal words. -/
def Obligations.RdregReadsTheRegister : Prop :=
  (∀ reg : Byte, encode (.rdreg reg) = .op (0x02000000#32 ||| reg.zeroExtend 32)) ∧
  (∀ w : OpWord, majorOf w = 0x02 → w.extractLsb' 8 16 ≠ 0 → decodeOp w = .error .reservedBits) ∧
  (∀ s : State,
    exec (.rdreg 0x00) s = .next { s with rsp := some (s.crc.zeroExtend 16) } ∧
    exec (.rdreg 0x01) s = .next
      { s with
        rsp := some (s.faultCause.code.zeroExtend 16 <<< 8 ||| s.frCmd.number.zeroExtend 16 <<< 2 |||
          (BitVec.ofBool s.fault).zeroExtend 16 <<< 1 ||| (BitVec.ofBool s.frBusy).zeroExtend 16) } ∧
    exec (.rdreg 0x02) s = .next { s with rsp := some s.frLen } ∧
    exec (.rdreg 0x03) s = .next { s with rsp := some s.frRem } ∧
    exec (.rdreg 0x04) s = .next { s with rsp := some (s.serIdx.zeroExtend 16) } ∧
    exec (.rdreg 0x05) s = .next { s with rsp := some (s.faultOp.extractLsb' 0 16) } ∧
    exec (.rdreg 0x06) s = .next { s with rsp := some (s.faultOp.extractLsb' 16 16) } ∧
    exec (.rdreg 0x07) s = .next { s with rsp := some 0x0180 } ∧
    exec (.rdreg 0x08) s = .next { s with rsp := some 0x007F }) ∧
  (∀ (s : State) (k : Nat) (h : k < Config.ROW_BYTES),
    exec (.rdreg (BitVec.ofNat 8 (0x10 + k))) s = .next { s with rsp := some (s.row[k].zeroExtend 16) }) ∧
  (∀ (s : State) (reg : Byte), (0x09 ≤ reg.toNat ∧ reg.toNat ≤ 0x0F) ∨ 0x40 ≤ reg.toNat →
    exec (.rdreg reg) s = .next
      (if s.fault then { s with rsp := none }
      else
        { s with
          fault := true, faultCause := .badReg, faultOp := 0x02000000#32 ||| reg.zeroExtend 32, rsp := none }))

/-- 10_state.md R39: the fields of STATUS, bit by bit, and its reset value. -/
def Obligations.StatusFields : Prop :=
  (∀ s : State,
    (s.readReg .status).extractLsb' 0 1 = BitVec.ofBool s.frBusy ∧
    (s.readReg .status).extractLsb' 1 1 = BitVec.ofBool s.fault ∧
    (s.readReg .status).extractLsb' 2 3 = s.frCmd.number ∧
    (s.readReg .status).extractLsb' 5 3 = 0 ∧
    (s.readReg .status).extractLsb' 8 4 = s.faultCause.code ∧
    (s.readReg .status).extractLsb' 12 4 = 0 ∧
    s.readReg .status =
      (s.faultCause.code.zeroExtend 16 <<< 8 ||| s.frCmd.number.zeroExtend 16 <<< 2 |||
        (BitVec.ofBool s.fault).zeroExtend 16 <<< 1 ||| (BitVec.ofBool s.frBusy).zeroExtend 16)) ∧
  State.reset.readReg .status = 0x0000

/-! ### The CRC engine (40_crc.md) -/

/-- R103: CRC.CLR. -/
def Obligations.CrcClrResult : Prop :=
  encode .crcClr = .op 0x10000000 ∧
  (∀ w : OpWord, majorOf w = 0x10 → w ≠ 0x10000000 → decodeOp w = .error .reservedBits) ∧
  (∀ s : State, s.fault = false → s.frBusy = false → exec .crcClr s = .next { s with crc := 0x00, rsp := none }) ∧
  (∀ s : State, s.fault = false → s.frBusy = true →
    exec .crcClr s = .next
      { s with fault := true, faultCause := .frameBusy, faultOp := 0x10000000, rsp := none })

/-- R104: CRC.UPD, without its marked derivation, which is `CrcSequenceLeavesTheChecksum`. -/
def Obligations.CrcUpdResult : Prop :=
  (∀ imm8 : Byte, encode (.crcUpd imm8) = .op (0x11000000#32 ||| imm8.zeroExtend 32)) ∧
  (∀ w : OpWord, majorOf w = 0x11 → w.extractLsb' 8 16 ≠ 0 → decodeOp w = .error .reservedBits) ∧
  (∀ (imm8 : Byte) (s : State), s.fault = false → s.frBusy = false →
    exec (.crcUpd imm8) s = .next { s with crc := Config.T (s.crc ^^^ imm8), rsp := none }) ∧
  (∀ (imm8 : Byte) (s : State), s.fault = false → s.frBusy = true →
    exec (.crcUpd imm8) s = .next
      { s with
        fault := true, faultCause := .frameBusy, faultOp := 0x11000000#32 ||| imm8.zeroExtend 32, rsp := none })

/-- CRC.CLR followed by CRC.UPD of the bytes of a sequence leaves its checksum, whatever the sequence: the sentence of R104
that the spec marks "[derived: from rules R100, R103 and R106]". -/
def Obligations.CrcSequenceLeavesTheChecksum : Prop :=
  ∀ (bs : List Byte) (s : State), s.fault = false → s.frBusy = false →
    execAll (.crcClr :: bs.map .crcUpd) s = .next { s with crc := checksum bs, rsp := none }

/-- R105: CRC.TAB, with or without an open frame; discarded while `fault` = 1. -/
def Obligations.CrcTabResult : Prop :=
  (∀ imm8 : Byte, encode (.crcTab imm8) = .op (0x12000000#32 ||| imm8.zeroExtend 32)) ∧
  (∀ w : OpWord, majorOf w = 0x12 → w.extractLsb' 8 16 ≠ 0 → decodeOp w = .error .reservedBits) ∧
  (∀ (imm8 : Byte) (s : State), s.fault = false →
    exec (.crcTab imm8) s = .next { s with rsp := some ((Config.T imm8).zeroExtend 16) }) ∧
  (∀ (imm8 : Byte) (s : State), s.fault = true → exec (.crcTab imm8) s = .next { s with rsp := none })

/-! ### The framer (41_framer.md) -/

/-- R123: FR.BEGIN. -/
def Obligations.FrBeginResult : Prop :=
  (∀ (cmd : CommandId) (len : Half),
    encode (.frBegin cmd len) = .op (0x20000000#32 ||| cmd.number.zeroExtend 32 <<< 16 ||| len.zeroExtend 32)) ∧
  (∀ w : OpWord, majorOf w = 0x20 → w.extractLsb' 19 5 ≠ 0 → decodeOp w = .error .reservedBits) ∧
  (∀ (cmd : CommandId) (s : State), s.fault = false → s.frBusy = false →
    exec (.frBegin cmd 0) s = .next
      { s with
        egress := s.egress ++ [0x51, 0x78, Config.OPC cmd, 0x00, 0x00, 0x00, 0x00, 0xFF],
        crc := 0x00, frCmd := cmd, frLen := 0, frRem := 0, frBusy := false, rsp := none }) ∧
  (∀ (cmd : CommandId) (len : Half) (s : State), s.fault = false → s.frBusy = false → len ≠ 0 →
    exec (.frBegin cmd len) s = .next
      { s with
        egress := s.egress ++ [0x51, 0x78, Config.OPC cmd, 0x00, len.extractLsb' 0 8, len.extractLsb' 8 8],
        crc := 0x00, frCmd := cmd, frLen := len, frRem := len, frBusy := true, rsp := none }) ∧
  (∀ (cmd : CommandId) (len : Half) (s : State), s.fault = false → s.frBusy = true →
    exec (.frBegin cmd len) s = .next
      { s with
        fault := true, faultCause := .frameBusy,
        faultOp := 0x20000000#32 ||| cmd.number.zeroExtend 32 <<< 16 ||| len.zeroExtend 32, rsp := none })

/-- R124: FR.DATA, on a payload byte that is not the last, on the last, and with no frame open. That `fr_rem` is at least 1
on entry is R28's invariant; what the model does without it is `FrDataWithNothingExpected`. -/
def Obligations.FrDataResult : Prop :=
  (∀ imm8 : Byte, encode (.frData imm8) = .op (0x21000000#32 ||| imm8.zeroExtend 32)) ∧
  (∀ w : OpWord, majorOf w = 0x21 → w.extractLsb' 8 16 ≠ 0 → decodeOp w = .error .reservedBits) ∧
  (∀ (imm8 : Byte) (s : State), s.fault = false → s.frBusy = true → 1 < s.frRem.toNat →
    exec (.frData imm8) s = .next
      { s with
        egress := s.egress ++ [imm8], crc := Config.T (s.crc ^^^ imm8), frRem := s.frRem - 1, rsp := none }) ∧
  (∀ (imm8 : Byte) (s : State), s.fault = false → s.frBusy = true → s.frRem = 1 →
    exec (.frData imm8) s = .next
      { s with
        egress := s.egress ++ [imm8, Config.T (s.crc ^^^ imm8), 0xFF], crc := Config.T (s.crc ^^^ imm8), frRem := 0,
        frBusy := false, rsp := none }) ∧
  (∀ (imm8 : Byte) (s : State), s.fault = false → s.frBusy = false →
    exec (.frData imm8) s = .next
      { s with
        fault := true, faultCause := .noFrame, faultOp := 0x21000000#32 ||| imm8.zeroExtend 32, rsp := none }) ∧
  (∀ s : State, FramerInv s → s.frBusy = true → (s.frRem - 1).toNat = s.frRem.toNat - 1 ∧ 1 ≤ s.frRem.toNat)

/-- R125: FR.ABORT, with and without an open frame. -/
def Obligations.FrAbortResult : Prop :=
  encode .frAbort = .op 0x22000000 ∧
  (∀ w : OpWord, majorOf w = 0x22 → w ≠ 0x22000000 → decodeOp w = .error .reservedBits) ∧
  (∀ s : State, s.fault = false → s.frBusy = true →
    exec .frAbort s = .next { s with frBusy := false, frRem := 0, rsp := none }) ∧
  (∀ s : State, s.fault = false → s.frBusy = false → exec .frAbort s = .next { s with rsp := none })

/-! ### The serializer (42_serializer.md) -/

/-- R150: a pixel is dark exactly when it is at most 126. -/
def Obligations.PixelDarkness : Prop :=
  ∀ pixel : Byte, isDark pixel = true ↔ pixel.toNat ≤ 126

/-- R151: SER.CLR, with or without an open frame. -/
def Obligations.SerClrResult : Prop :=
  encode .serClr = .op 0x30000000 ∧
  (∀ w : OpWord, majorOf w = 0x30 → w ≠ 0x30000000 → decodeOp w = .error .reservedBits) ∧
  (∀ s : State, s.fault = false →
    exec .serClr s = .next { s with row := Vector.replicate Config.ROW_BYTES 0x00, serIdx := 0, rsp := none })

/-- R152: SER.PIX writes exactly the next dot, with or without an open frame; a full row faults. `row'` is fixed dot by dot:
the row is its 384 dots. On a row that meets R31's invariant a light pixel leaves the bit alone. -/
def Obligations.SerPixResult : Prop :=
  (∀ imm8 : Byte, encode (.serPix imm8) = .op (0x31000000#32 ||| imm8.zeroExtend 32)) ∧
  (∀ w : OpWord, majorOf w = 0x31 → w.extractLsb' 8 16 ≠ 0 → decodeOp w = .error .reservedBits) ∧
  (∀ (imm8 : Byte) (s : State), s.fault = false → s.serIdx.toNat < 384 →
    ∃ row' : Vector Byte Config.ROW_BYTES,
      exec (.serPix imm8) s = .next { s with row := row', serIdx := s.serIdx + 1, rsp := none } ∧
      (s.serIdx + 1).toNat = s.serIdx.toNat + 1 ∧
      ∀ (k : Nat) (hk : k < Config.ROW_BYTES) (b : Nat), b < 8 →
        row'[k].getLsbD b =
          if k = s.serIdx.toNat / 8 ∧ b = 7 - s.serIdx.toNat % 8 then decide (imm8.toNat < 127)
          else s.row[k].getLsbD b) ∧
  (∀ (imm8 : Byte) (s : State), s.fault = false → s.serIdx.toNat = 384 →
    exec (.serPix imm8) s = .next
      { s with
        fault := true, faultCause := .pixelOverflow, faultOp := 0x31000000#32 ||| imm8.zeroExtend 32, rsp := none }) ∧
  (∀ (imm8 : Byte) (s : State), s.fault = false → SerializerInv s → s.serIdx.toNat < 384 → 127 ≤ imm8.toNat →
    exec (.serPix imm8) s = .next { s with serIdx := s.serIdx + 1, rsp := none })

/-- SER.PIX where `ser_idx` is above `HRES`, a state that R29 and R31's invariant rule out: the model stops (DEDUCED, log
entry 11). -/
def Obligations.SerPixBeyondTheRowStops : Prop :=
  ∀ (imm8 : Byte) (s : State), s.fault = false → 384 < s.serIdx.toNat →
    exec (.serPix imm8) s = .fault .rowIndexOutOfRange ∧ ¬ SerializerInv s

/-- R153: SER.EMIT, for any `ser_idx`; FRAME_BUSY while a frame is open. With `ser_idx` = 0, on a row that meets R31's
invariant, the row is all white and its checksum 0x00. -/
def Obligations.SerEmitResult : Prop :=
  encode .serEmit = .op 0x32000000 ∧
  (∀ w : OpWord, majorOf w = 0x32 → w ≠ 0x32000000 → decodeOp w = .error .reservedBits) ∧
  (∀ s : State, s.fault = false → s.frBusy = false →
    exec .serEmit s = .next
      { s with
        egress := s.egress ++ [0x51, 0x78, 0xA2, 0x00, 0x30, 0x00] ++ s.row.toList ++ [checksum s.row.toList, 0xFF],
        crc := checksum s.row.toList, frCmd := .bitmapData, frLen := 48, frRem := 0,
        row := Vector.replicate Config.ROW_BYTES 0x00, serIdx := 0, rsp := none }) ∧
  (∀ s : State, s.fault = false → s.frBusy = true →
    exec .serEmit s = .next
      { s with fault := true, faultCause := .frameBusy, faultOp := 0x32000000, rsp := none }) ∧
  (∀ s : State, SerializerInv s → s.serIdx = 0 →
    s.row = Vector.replicate Config.ROW_BYTES 0x00 ∧ checksum s.row.toList = 0x00)

/-! ### Frame opcode rows (30_encoding.md R80, R81) -/

/-- A frame opcode row tells the reader of emitted frames its command, and changes nothing of the block. The reader's answer
as a field of the state is the model's choice (log entry 3). -/
def Obligations.FrameOpcodeRowsNameTheCommand : Prop :=
  (∀ s : State,
    exec .paper s = .next { s with readerCmd := some .paper, rsp := none } ∧
    exec .getDeviceState s = .next { s with readerCmd := some .getDeviceState, rsp := none } ∧
    exec .quality s = .next { s with readerCmd := some .quality, rsp := none } ∧
    exec .energy s = .next { s with readerCmd := some .energy, rsp := none } ∧
    exec .lattice s = .next { s with readerCmd := some .lattice, rsp := none } ∧
    exec .printSpeed s = .next { s with readerCmd := some .printSpeed, rsp := none } ∧
    exec .printMode s = .next { s with readerCmd := some .printMode, rsp := none } ∧
    exec .bitmapData s = .next { s with readerCmd := some .bitmapData, rsp := none }) ∧
  (∀ (s : State) (rest : List Input) (c : CommandId), s.inputs = .code (.frame (Config.OPC c)) :: rest →
    step s = .next { s with inputs := rest, readerCmd := some c, rsp := none })

/-! ### Faults (60_exceptions.md) -/

/-- R204: whatever operation raises a fault while `fault` = 0 records the fault, its cause and its own op word, and has no
other effect. -/
def Obligations.FaultEntryRecordsOnlyTheFault : Prop :=
  ∀ (i : Instr) (s t : State), s.fault = false → exec i s = .next t → t.fault = true →
    ∃ (c : Cause) (w : OpWord), c ≠ .none ∧ encode i = .op w ∧
      t = { s with fault := true, faultCause := c, faultOp := w, rsp := none }

/-- R200: the codes, which operation raises which cause, and exactly when. -/
def Obligations.FaultCauses : Prop :=
  ([Cause.none, .illegalOp, .badReg, .frameBusy, .noFrame, .pixelOverflow].map Cause.code = [0, 1, 2, 3, 4, 5]) ∧
  (∀ c : Cause, c.code.toNat ≤ 5) ∧
  (∀ (w : OpWord) (s : State) (rest : List Input), s.fault = false → s.inputs = .code (.op w) :: rest →
    ((∀ r ∈ opRows, w &&& r.mask ≠ r.bits) ↔
      step s = .next
        { s with inputs := rest, fault := true, faultCause := .illegalOp, faultOp := w, rsp := none })) ∧
  (∀ (i : Instr) (s t : State), s.fault = false → exec i s = .next t →
    (t.faultCause = .badReg ∧ t.fault = true ↔ ∃ reg, i = .rdreg reg ∧ regOfIndex reg = none) ∧
    (t.faultCause = .frameBusy ∧ t.fault = true ↔
      ((∃ cmd len, i = .frBegin cmd len) ∨ i = .serEmit ∨ i = .crcClr ∨ ∃ imm8, i = .crcUpd imm8) ∧
        s.frBusy = true) ∧
    (t.faultCause = .noFrame ∧ t.fault = true ↔ (∃ imm8, i = .frData imm8) ∧ s.frBusy = false) ∧
    (t.faultCause = .pixelOverflow ∧ t.fault = true ↔ (∃ imm8, i = .serPix imm8) ∧ s.serIdx.toNat = 384) ∧
    (t.fault = true → t.faultOp = i.opWord ∧ t.faultCause ≠ .none ∧ t.faultCause ≠ .illegalOp ∧
      t.egress = s.egress))

/-- R205: the complete step of an op word, faulted or not. -/
def Obligations.GatingWhileFaulted : Prop :=
  ∀ (w : OpWord) (s : State) (rest : List Input), s.inputs = .code (.op w) :: rest →
    (s.fault = true →
      match decodeOp w with
      | .ok .nop => step s = .next { s with inputs := rest, rsp := none }
      | .ok .srst => step s = .next { State.reset with egress := s.egress, inputs := rest, readerCmd := s.readerCmd }
      | .ok (.rdreg reg) =>
        (match regOfIndex reg with
        | some r => step s = .next { s with inputs := rest, rsp := some (s.readReg r) }
        | none => step s = .next { s with inputs := rest, rsp := none })
      | _ => step s = .next { s with inputs := rest, rsp := none }) ∧
    (s.fault = false →
      match decodeOp w with
      | .error _ =>
        step s = .next { s with inputs := rest, fault := true, faultCause := .illegalOp, faultOp := w, rsp := none }
      | .ok i => step s = exec i { s with inputs := rest })

/-- 10_state.md R32: the fault flag is sticky. Only a step of `RESET_I` or of SRST clears it; any other step of a faulted
block keeps it and its record; it drives `FAULT_O`. -/
def Obligations.FaultLeftOnlyByReset : Prop :=
  (∀ s t : State, s.fault = true → step s = .next t →
    ((∃ rest, s.inputs = .resetI :: rest ∨ s.inputs = .code (.op 0x01000000) :: rest) ∧ t.fault = false) ∨
    (t.fault = true ∧ t.faultCause = s.faultCause ∧ t.faultOp = s.faultOp)) ∧
  (∀ s t : State, s.fault = false → step s = .next t → t.fault = true →
    ∃ (c : Cause) (w : OpWord) (rest : List Input), s.inputs = .code (.op w) :: rest ∧ c ≠ .none ∧
      t = { s with inputs := rest, fault := true, faultCause := c, faultOp := w, rsp := none }) ∧
  (∀ s : State, s.faultO = s.fault)

/-! ### Egress and frames of effect -/

/-- 20_memory.md R53: no step, of whatever kind, removes, reorders or rewrites a byte of the egress stream, and the block
never reads it: what a step does and appends is the same whatever was emitted before. -/
def Obligations.EgressOnlyGrows : Prop :=
  State.reset.egress = [] ∧
  ∀ s t : State, step s = .next t → ∃ bs, t.egress = s.egress ++ bs ∧
    ∀ e : List Byte, step { s with egress := e } = .next { t with egress := e ++ bs }

/-- How many bytes each operation appends: the table of 70_reset_and_hazards.md R246, which the spec marks "[derived]".
For FR.DATA with a frame open and `fr_rem` = 0, which R28 rules out, the count is the model's (DEDUCED, log entry 12). -/
def Obligations.EgressCounts : Prop :=
  ∀ (i : Instr) (s t : State), exec i s = .next t →
    (s.fault = true ∨ t.fault = true → t.egress = s.egress) ∧
    (s.fault = false → t.fault = false →
      t.egress.length = s.egress.length +
        match i with
        | .frBegin _ len => if len = 0 then 8 else 6
        | .frData _ => if s.frRem = 1 then 3 else 1
        | .serEmit => 56
        | _ => 0)

/-- While a frame is open only FR.DATA appends, FR.BEGIN and SER.EMIT fault, and the operations that may come between leave
the framer, `crc` and `egress` alone: 41_framer.md R128, which the spec marks "[derived]". -/
def Obligations.FramesNeverInterleave : Prop :=
  (∀ (i : Instr) (s t : State), s.frBusy = true → exec i s = .next t → t.egress ≠ s.egress →
    ∃ imm8, i = .frData imm8) ∧
  (∀ s : State, s.frBusy = true → s.fault = false →
    (∀ cmd len, exec (.frBegin cmd len) s = .next
      { s with fault := true, faultCause := .frameBusy, faultOp := (Instr.frBegin cmd len).opWord, rsp := none }) ∧
    exec .serEmit s = .next
      { s with fault := true, faultCause := .frameBusy, faultOp := Instr.serEmit.opWord, rsp := none }) ∧
  (∀ (i : Instr) (s t : State), leavesFrameAlone i = true → exec i s = .next t →
    t.crc = s.crc ∧ t.frBusy = s.frBusy ∧ t.frCmd = s.frCmd ∧ t.frLen = s.frLen ∧ t.frRem = s.frRem ∧
      t.egress = s.egress)

/-- Which instructions can write each element: everything an instruction is not listed for, it leaves unchanged in every
state in which it answers a next state (10_state.md R20, R23, R25, R26, R27, R29, R37; 20_memory.md R51). -/
def Obligations.WritersOfEachElement : Prop :=
  ∀ (i : Instr) (s t : State), exec i s = .next t →
    (t.crc ≠ s.crc → i = .crcClr ∨ (∃ b, i = .crcUpd b) ∨ (∃ c l, i = .frBegin c l) ∨ (∃ b, i = .frData b) ∨
      i = .serEmit ∨ i = .srst) ∧
    (t.frBusy ≠ s.frBusy → (∃ c l, i = .frBegin c l) ∨ (∃ b, i = .frData b) ∨ i = .frAbort ∨ i = .srst) ∧
    (t.frCmd ≠ s.frCmd ∨ t.frLen ≠ s.frLen → (∃ c l, i = .frBegin c l) ∨ i = .serEmit ∨ i = .srst) ∧
    (t.frRem ≠ s.frRem → (∃ c l, i = .frBegin c l) ∨ (∃ b, i = .frData b) ∨ i = .frAbort ∨ i = .serEmit ∨
      i = .srst) ∧
    (t.serIdx ≠ s.serIdx ∨ t.row ≠ s.row → i = .serClr ∨ (∃ b, i = .serPix b) ∨ i = .serEmit ∨ i = .srst) ∧
    (t.egress ≠ s.egress → (∃ c l, i = .frBegin c l) ∨ (∃ b, i = .frData b) ∨ i = .serEmit) ∧
    (t.rsp ≠ none → (∃ r, i = .rdreg r) ∨ ∃ b, i = .crcTab b) ∧
    (t.fault ≠ s.fault ∨ t.faultCause ≠ s.faultCause ∨ t.faultOp ≠ s.faultOp →
      i = .srst ∨ (s.fault = false ∧ t.fault = true)) ∧
    t.inputs = s.inputs ∧
    (t.readerCmd ≠ s.readerCmd → ∃ c : CommandId, i = c.frameInstr)

/-- 20_memory.md R61: a register read and a table read change no state, and a second one right after returns the same
value. -/
def Obligations.ReadsHaveNoSideEffects : Prop :=
  (∀ (r : Reg) (s t : State), exec (.rdreg r.index) s = .next t →
    t = { s with rsp := some (s.readReg r) } ∧ exec (.rdreg r.index) t = .next t) ∧
  (∀ (imm8 : Byte) (s t : State), exec (.crcTab imm8) s = .next t →
    { t with rsp := s.rsp } = s ∧ exec (.crcTab imm8) t = .next t)

/-- The framer's faults and its sequencing depend on no byte's value; every payload value and every length is accepted:
41_framer.md R129, which the spec marks "[derived]". -/
def Obligations.FramerFaultsIgnoreBytes : Prop :=
  (∀ (b b' : Byte) (s s' t t' : State),
    s.fault = s'.fault → s.faultCause = s'.faultCause → s.frBusy = s'.frBusy → s.frRem = s'.frRem →
    exec (.frData b) s = .next t → exec (.frData b') s' = .next t' →
    t.fault = t'.fault ∧ t.faultCause = t'.faultCause ∧ t.frBusy = t'.frBusy ∧ t.frRem = t'.frRem) ∧
  (∀ (c c' : CommandId) (len : Half) (s s' t t' : State),
    s.fault = s'.fault → s.faultCause = s'.faultCause → s.frBusy = s'.frBusy → s.frRem = s'.frRem →
    exec (.frBegin c len) s = .next t → exec (.frBegin c' len) s' = .next t' →
    t.fault = t'.fault ∧ t.faultCause = t'.faultCause ∧ t.frBusy = t'.frBusy ∧ t.frRem = t'.frRem) ∧
  (∀ (c : CommandId) (len : Half) (s : State), s.fault = false → s.frBusy = false →
    ∃ t, exec (.frBegin c len) s = .next t ∧ t.fault = false) ∧
  (∀ (b : Byte) (s : State), s.fault = false → s.frBusy = true →
    ∃ t, exec (.frData b) s = .next t ∧ t.fault = false)

/-! ### Invariants -/

/-- The reset state meets the invariants of 10_state.md R28, R31, R33 and R34. -/
def Obligations.ResetMeetsStateInv : Prop := StateInv State.reset

/-- Every operation and every step keeps the framer invariant, and reset establishes it: 10_state.md R28, which the spec marks
"[derived]". -/
def Obligations.FramerInvKept : Prop :=
  (∀ (i : Instr) (s t : State), FramerInv s → exec i s = .next t → FramerInv t) ∧
  (∀ s t : State, FramerInv s → step s = .next t → FramerInv t) ∧
  (∀ s : State, FramerInv s.applyReset)

/-- Every operation and every step keeps the serializer invariant, and reset establishes it: 10_state.md R31, which the spec
marks "[derived]", with R29's range. -/
def Obligations.SerializerInvKept : Prop :=
  (∀ (i : Instr) (s t : State), SerializerInv s → exec i s = .next t → SerializerInv t) ∧
  (∀ s t : State, SerializerInv s → step s = .next t → SerializerInv t) ∧
  (∀ s : State, SerializerInv s.applyReset)

/-- 10_state.md R33, R34 with the "raised by" column of 60_exceptions.md R200: every step keeps the fault record sound. -/
def Obligations.FaultRecordKept : Prop :=
  ∀ s t : State, FaultInv s → step s = .next t → FaultInv t

/-- No instruction and no step stops the model in a state that meets the serializer invariant, which every reachable state
does: every op word completes (60_exceptions.md R205, R216: "no operation waits"). -/
def Obligations.EveryStepCompletes : Prop :=
  (∀ (i : Instr) (s : State), SerializerInv s → ∃ t, exec i s = .next t) ∧
  (∀ s : State, SerializerInv s → ∃ t, step s = .next t)

/-! ### The wire -/

/-- 41_framer.md R126 (marked "[derived]") without operations in between: FR.BEGIN and the FR.DATA of a payload of any length
complete and append exactly `encode(cmd, p)`. -/
def Obligations.FrameEquivalence : Prop :=
  ∀ (cmd : CommandId) (p : List Byte) (s : State), s.fault = false → s.frBusy = false → p.length ≤ 65535 →
    execAll (.frBegin cmd (BitVec.ofNat 16 p.length) :: p.map .frData) s = .next
      { s with
        egress := s.egress ++ encodeFrame cmd p, crc := checksum p, frCmd := cmd,
        frLen := BitVec.ofNat 16 p.length, frRem := 0, frBusy := false, rsp := none }

/-- 41_framer.md R126 (marked "[derived]") with operations in between, as R128 lists them (log entry 17), none of which
faults. -/
def Obligations.FrameEquivalenceInterleaved : Prop :=
  ∀ (cmd : CommandId) (parts : List (List Instr × Byte)) (s t : State), s.fault = false → s.frBusy = false →
    parts.length ≤ 65535 → (∀ part ∈ parts, ∀ i ∈ part.1, leavesFrameAlone i = true) →
    SafeRun (.frBegin cmd (BitVec.ofNat 16 parts.length) :: weave .frData parts) s t →
    t.egress = s.egress ++ encodeFrame cmd (parts.map (fun part => part.2)) ∧
    t.frBusy = false ∧ t.crc = checksum (parts.map (fun part => part.2))

/-- 42_serializer.md R154 (marked "[derived]") without operations in between: SER.CLR, a SER.PIX per pixel and SER.EMIT
complete, from any row, and append exactly `encode(7, pack(q))`, 56 bytes. -/
def Obligations.RowEquivalence : Prop :=
  ∀ (q : List Byte) (s : State), s.fault = false → s.frBusy = false → q.length ≤ 384 →
    (encodeFrame .bitmapData (pack q).toList).length = 56 ∧
    execAll (.serClr :: (q.map .serPix ++ [.serEmit])) s = .next
      { s with
        egress := s.egress ++ encodeFrame .bitmapData (pack q).toList, crc := checksum (pack q).toList,
        frCmd := .bitmapData, frLen := 48, frRem := 0, row := Vector.replicate Config.ROW_BYTES 0x00, serIdx := 0,
        rsp := none }

/-- 42_serializer.md R154 (marked "[derived]") with operations in between that neither emit nor touch the serializer (log
entry 17), none of which faults. -/
def Obligations.RowEquivalenceInterleaved : Prop :=
  ∀ (parts : List (List Instr × Byte)) (last : List Instr) (s t : State), s.fault = false → s.frBusy = false →
    parts.length ≤ 384 → (∀ part ∈ parts, ∀ i ∈ part.1, leavesRowAlone i = true) →
    (∀ i ∈ last, leavesRowAlone i = true) →
    SafeRun (.serClr :: (weave .serPix parts ++ (last ++ [.serEmit]))) s t →
    t.egress = s.egress ++ encodeFrame .bitmapData (pack (parts.map (fun part => part.2))).toList

/-- 42_serializer.md R155: the bits of `pack(q)`, byte by byte and dot by dot; the dots beyond the pixels are 0 (R156). -/
def Obligations.PackBits : Prop :=
  ∀ q : List Byte, q.length ≤ 384 →
    (∀ (k : Nat) (hk : k < Config.ROW_BYTES) (b : Nat), b ≤ 7 →
      ((pack q)[k].getLsbD b = true ↔ ∃ h : 8 * k + (7 - b) < q.length, q[8 * k + (7 - b)].toNat < 127)) ∧
    (∀ (i : Nat) (h : i < q.length), dotOf (pack q) i = decide (q[i].toNat < 127)) ∧
    (∀ i, q.length ≤ i → i < 384 → dotOf (pack q) i = false)

/-- All white, all black, one dark pixel at column 0, one at column 383: 42_serializer.md R158, which the spec marks
"[derived]". -/
def Obligations.PackProperties : Prop :=
  ∀ q : List Byte, q.length = 384 →
    ((∀ p ∈ q, 127 ≤ p.toNat) → (pack q).toList = List.replicate 48 0x00) ∧
    ((∀ p ∈ q, p.toNat < 127) → (pack q).toList = List.replicate 48 0xFF) ∧
    ((∀ (i : Nat) (h : i < q.length), q[i].toNat < 127 ↔ i = 0) →
      (pack q).toList = 0b10000000#8 :: List.replicate 47 0x00) ∧
    ((∀ (i : Nat) (h : i < q.length), q[i].toNat < 127 ↔ i = 383) →
      (pack q).toList = List.replicate 47 0x00 ++ [0b00000001#8])

/-- 41_framer.md R127 with 30_encoding.md R81: a reader of `egress` finds a complete frame's length, end and command,
whatever follows it. -/
def Obligations.ReaderFindsTheFrame : Prop :=
  ∀ (cmd : CommandId) (p rest : List Byte), p.length ≤ 65535 →
    (encodeFrame cmd p).length = p.length + 8 ∧
    frameLength (encodeFrame cmd p ++ rest) = some (p.length + 8) ∧
    nextFrame (encodeFrame cmd p ++ rest) = some (encodeFrame cmd p, rest) ∧
    frameCommand (encodeFrame cmd p ++ rest) = some cmd

/-- The step and concatenation laws for every table, and the zero law for every table with `T[0x00] = 0x00`, which this
hardware's is: 40_crc.md R106, which the spec marks "[derived]". -/
def Obligations.CrcLaws : Prop :=
  (∀ (T : Byte → Byte) (s : List Byte) (b : Byte), checksumWith T (s ++ [b]) = T (checksumWith T s ^^^ b)) ∧
  (∀ (T : Byte → Byte) (s t : List Byte), checksumWith T (s ++ t) = checksumFromWith T (checksumWith T s) t) ∧
  (∀ (T : Byte → Byte) (n : Nat), T 0x00 = 0x00 → checksumWith T (List.replicate n 0x00) = 0x00) ∧
  Config.T 0x00 = 0x00

/-- 40_crc.md R101: the table is the one its procedure generates, and it meets the four facts the golden vectors pin. -/
def Obligations.CrcTableFacts : Prop :=
  (∀ i : Byte, Config.T i = generatedEntry i) ∧
  Config.T 0x00 = 0x00 ∧ Config.T 0x01 = 0x07 ∧ Config.T (Config.T 0x30) = 0xF9 ∧ Config.T (Config.T 0x48) = 0xF3

/-! ### The assembler (30_encoding.md section 5) -/

/-- R86: each pseudo-instruction assembles to the sequence of its row, under its condition, and to nothing otherwise. -/
def Obligations.PseudoExpansions : Prop :=
  (∀ bs : List Byte, assemblePseudo (.crcBytes (bs.map BitVec.toNat)) = some (.crcClr :: bs.map .crcUpd)) ∧
  (∀ (cmd : CommandId) (bs : List Byte), bs.length ≤ 65535 →
    assemblePseudo (.frFrame cmd.number.toNat (bs.map BitVec.toNat)) =
      some (.frBegin cmd (BitVec.ofNat 16 bs.length) :: bs.map .frData)) ∧
  (∀ q : List Byte, q.length ≤ 384 →
    assemblePseudo (.serRow (q.map BitVec.toNat)) = some (.serClr :: (q.map .serPix ++ [.serEmit]))) ∧
  (∀ k : Nat, k < 48 → assemblePseudo (.rdrow k) = some [.rdreg (BitVec.ofNat 8 (0x10 + k))]) ∧
  (∀ (cmd : Nat) (ns : List Nat), 65535 < ns.length → assemblePseudo (.frFrame cmd ns) = none) ∧
  (∀ ns : List Nat, 384 < ns.length → assemblePseudo (.serRow ns) = none) ∧
  (∀ k : Nat, 48 ≤ k → assemblePseudo (.rdrow k) = none)

/-- R83: which numbers an operation takes; a number out of range is an assembly error. -/
def Obligations.AssemblerRanges : Prop :=
  (∀ n : Nat, assembleOp (.rdreg n) = (if n ≤ 255 then some (.rdreg (BitVec.ofNat 8 n)) else none)) ∧
  (∀ n : Nat, assembleOp (.crcUpd n) = (if n ≤ 255 then some (.crcUpd (BitVec.ofNat 8 n)) else none)) ∧
  (∀ n : Nat, assembleOp (.crcTab n) = (if n ≤ 255 then some (.crcTab (BitVec.ofNat 8 n)) else none)) ∧
  (∀ n : Nat, assembleOp (.frData n) = (if n ≤ 255 then some (.frData (BitVec.ofNat 8 n)) else none)) ∧
  (∀ n : Nat, assembleOp (.serPix n) = (if n ≤ 255 then some (.serPix (BitVec.ofNat 8 n)) else none)) ∧
  (∀ (cmd : CommandId) (len : Nat), assembleOp (.frBegin cmd.number.toNat len) =
    (if len ≤ 65535 then some (.frBegin cmd (BitVec.ofNat 16 len)) else none)) ∧
  (∀ cmd len : Nat, 7 < cmd → assembleOp (.frBegin cmd len) = none)

/-- R84, R85: the register names, every `row<k>` among them, the command names, and three names outside the lists. That a
`row<k>` name takes k in decimal, so that `row10` is 0x1A and `row47` 0x3F, is the model's choice (DESIGN CHOICE, log entry
18). -/
def Obligations.AssemblerNames : Prop :=
  (["crc", "status", "fr_len", "fr_rem", "ser_idx", "fault_op_lo", "fault_op_hi", "hres", "thresh", "row0", "row9",
    "row10", "row47"].map (fun n => regOperand n.toList) =
      [some 0x00, some 0x01, some 0x02, some 0x03, some 0x04, some 0x05, some 0x06, some 0x07, some 0x08, some 0x10,
        some 0x19, some 0x1A, some 0x3F]) ∧
  (∀ k : Fin 48, regOperand ("row".toList ++ Nat.toDigits 10 k.val) = some (0x10 + k.val)) ∧
  (["row48", "row", "crc8"].map (fun n => regOperand n.toList) = [none, none, none]) ∧
  (["paper", "getdevicestate", "quality", "energy", "lattice", "printspeed", "printmode", "bitmapdata"].map
    (fun n => cmdOperand n.toList) = [some 0, some 1, some 2, some 3, some 4, some 5, some 6, some 7])

/-! ### A state that no run reaches -/

/-- FR.DATA with a frame open and `fr_rem` = 0, a state that R28's invariant rules out: the decrement wraps as R17 says and
the frame goes on (DEDUCED, log entry 12). R124 says of it only that it does not occur. -/
def Obligations.FrDataWithNothingExpected : Prop :=
  ∀ (imm8 : Byte) (s : State), s.fault = false → s.frBusy = true → s.frRem = 0 →
    exec (.frData imm8) s = .next
      { s with egress := s.egress ++ [imm8], crc := Config.T (s.crc ^^^ imm8), frRem := 0xFFFF, rsp := none } ∧
    ¬ FramerInv s
end

