-- ==== Sys2Proof/Laws/Decode.lean ====
section
/-! SUPPORT. What the masks of the operation map (spec 30_encoding.md R76) say about the fields of a word, and what the
format diagrams (R72 to R75) give each field of an encoded word. -/

namespace Sys2Proof

/-! ### Masks as fields -/

/-- The mask of formats B and R keeps bits 31:8. -/
theorem and_byte_mask (w : OpWord) : w &&& 0xFFFFFF00#32 = (w >>> 8) <<< 8 := by
  ext i hi
  interval_cases i <;> simp

/-- The mask of format F keeps bits 31:19. -/
theorem and_begin_mask (w : OpWord) : w &&& 0xFFF80000#32 = (w >>> 19) <<< 19 := by
  ext i hi
  interval_cases i <;> simp

/-- The mask of format N keeps every bit. -/
theorem and_full_mask (w : OpWord) : w &&& 0xFFFFFFFF#32 = w := by
  ext i hi
  interval_cases i <;> simp

/-- Formats B and R: the mask comparison, as numbers. -/
theorem byte_row_iff (w m : OpWord) : w &&& 0xFFFFFF00#32 = m ↔ w.toNat / 256 * 256 = m.toNat := by
  have h : ((w >>> 8) <<< 8).toNat = w.toNat / 256 * 256 := by
    have := w.isLt
    simp [Nat.shiftRight_eq_div_pow, Nat.shiftLeft_eq]
    omega
  rw [and_byte_mask, ← BitVec.toNat_inj, h]

/-- Format F: the mask comparison, as numbers. -/
theorem begin_row_iff (w m : OpWord) : w &&& 0xFFF80000#32 = m ↔ w.toNat / 524288 * 524288 = m.toNat := by
  have h : ((w >>> 19) <<< 19).toNat = w.toNat / 524288 * 524288 := by
    have := w.isLt
    simp [Nat.shiftRight_eq_div_pow, Nat.shiftLeft_eq]
    omega
  rw [and_begin_mask, ← BitVec.toNat_inj, h]

/-- Format N: the mask comparison, as numbers. -/
theorem full_row_iff (w m : OpWord) : w &&& 0xFFFFFFFF#32 = m ↔ w.toNat = m.toNat := by
  rw [and_full_mask, ← BitVec.toNat_inj]

/-- The major opcode as a number (R71). -/
theorem majorOf_toNat (w : OpWord) : (majorOf w).toNat = w.toNat / 16777216 := by
  have := w.isLt
  simp [majorOf, Nat.shiftRight_eq_div_pow]
  omega

/-- The byte operand as a number (R82). -/
theorem imm8Of_toNat (w : OpWord) : (imm8Of w).toNat = w.toNat % 256 := by
  simp [imm8Of]

/-- The register index as a number (R82). -/
theorem regOf_toNat (w : OpWord) : (regOf w).toNat = w.toNat % 256 := imm8Of_toNat w

/-- The command operand as a number (R79, R82). -/
theorem cmdOf_number_toNat (w : OpWord) : (cmdOf w).number.toNat = w.toNat / 65536 % 8 := by
  have h : ∀ n : BitVec 3, (CommandId.ofNumber n).number = n := by decide
  simp [cmdOf, h, Nat.shiftRight_eq_div_pow]

/-- The length operand as a number (R82). -/
theorem lenOf_toNat (w : OpWord) : (lenOf w).toNat = w.toNat % 65536 := by
  simp [lenOf]

/-! ### The decoder, row by row -/

/-- The decoder of R77 with each mask comparison as numbers. -/
theorem decodeOp_eq (w : OpWord) :
    decodeOp w =
      if w.toNat = 0 then .ok .nop
      else if w.toNat = 0x01000000 then .ok .srst
      else if w.toNat / 256 * 256 = 0x02000000 then .ok (.rdreg (regOf w))
      else if w.toNat = 0x10000000 then .ok .crcClr
      else if w.toNat / 256 * 256 = 0x11000000 then .ok (.crcUpd (imm8Of w))
      else if w.toNat / 256 * 256 = 0x12000000 then .ok (.crcTab (imm8Of w))
      else if w.toNat / 524288 * 524288 = 0x20000000 then .ok (.frBegin (cmdOf w) (lenOf w))
      else if w.toNat / 256 * 256 = 0x21000000 then .ok (.frData (imm8Of w))
      else if w.toNat = 0x22000000 then .ok .frAbort
      else if w.toNat = 0x30000000 then .ok .serClr
      else if w.toNat / 256 * 256 = 0x31000000 then .ok (.serPix (imm8Of w))
      else if w.toNat = 0x32000000 then .ok .serEmit
      else if w.toNat / 16777216 ∈ [0x00, 0x01, 0x02, 0x10, 0x11, 0x12, 0x20, 0x21, 0x22, 0x30, 0x31, 0x32] then
        .error .reservedBits
      else .error .unassignedOpcode := by
  have hm : (opRows.any fun r => majorOf r.bits == majorOf w) =
      decide (w.toNat / 16777216 ∈ [0x00, 0x01, 0x02, 0x10, 0x11, 0x12, 0x20, 0x21, 0x22, 0x30, 0x31, 0x32]) := by
    simp only [opRows, List.any_cons, List.any_nil, beq_eq_decide, ← BitVec.toNat_inj, majorOf_toNat, BitVec.toNat_ofNat]
    simp [eq_comm]
  unfold decodeOp
  rw [hm]
  simp only [opRows, List.find?_cons, List.find?_nil, OpRow.covers, beq_eq_decide, byte_row_iff, begin_row_iff,
    full_row_iff, BitVec.toNat_ofNat, Nat.reducePow, Nat.reduceMod]
  by_cases h : w.toNat = 0
  · simp only [h, decide_true, if_true]
  simp only [h, decide_false, if_false]
  clear h
  by_cases h : w.toNat = 0x01000000
  · simp only [h, decide_true, if_true]
  simp only [h, decide_false, if_false]
  clear h
  by_cases h : w.toNat / 256 * 256 = 0x02000000
  · simp only [h, decide_true, if_true]
  simp only [h, decide_false, if_false]
  clear h
  by_cases h : w.toNat = 0x10000000
  · simp only [h, decide_true, if_true]
  simp only [h, decide_false, if_false]
  clear h
  by_cases h : w.toNat / 256 * 256 = 0x11000000
  · simp only [h, decide_true, if_true]
  simp only [h, decide_false, if_false]
  clear h
  by_cases h : w.toNat / 256 * 256 = 0x12000000
  · simp only [h, decide_true, if_true]
  simp only [h, decide_false, if_false]
  clear h
  by_cases h : w.toNat / 524288 * 524288 = 0x20000000
  · simp only [h, decide_true, if_true]
  simp only [h, decide_false, if_false]
  clear h
  by_cases h : w.toNat / 256 * 256 = 0x21000000
  · simp only [h, decide_true, if_true]
  simp only [h, decide_false, if_false]
  clear h
  by_cases h : w.toNat = 0x22000000
  · simp only [h, decide_true, if_true]
  simp only [h, decide_false, if_false]
  clear h
  by_cases h : w.toNat = 0x30000000
  · simp only [h, decide_true, if_true]
  simp only [h, decide_false, if_false]
  clear h
  by_cases h : w.toNat / 256 * 256 = 0x31000000
  · simp only [h, decide_true, if_true]
  simp only [h, decide_false, if_false]
  clear h
  by_cases h : w.toNat = 0x32000000
  · simp only [h, decide_true, if_true]
  simp only [h, decide_false, if_false]
  clear h
  simp only [decide_eq_true_eq]

/-! ### Encoded words -/

/-- A format N word as a number (R72). -/
theorem formatN_toNat (op : Byte) : (formatN op).toNat = op.toNat * 16777216 := by
  have h : (formatN op).toNat = op.toNat <<< 24 ||| (0#24).toNat := BitVec.toNat_append op 0#24
  simpa [Nat.shiftLeft_eq] using h

/-- A format B or R word as a number (R73, R75). -/
theorem formatB_toNat (op imm8 : Byte) : (formatB op imm8).toNat = op.toNat * 16777216 + imm8.toNat := by
  have h0 : (op ++ 0#16).toNat = op.toNat <<< 16 := by
    simpa using BitVec.toNat_append op 0#16
  have h1 : (formatB op imm8).toNat = (op ++ 0#16).toNat <<< 8 ||| imm8.toNat := BitVec.toNat_append (op ++ 0#16) imm8
  rw [h1, h0, ← Nat.shiftLeft_add_eq_or_of_lt imm8.isLt]
  simp only [Nat.shiftLeft_eq]
  omega

/-- A format F word as a number (R74). -/
theorem formatF_toNat (op : Byte) (cmd : CommandId) (len : Half) :
    (formatF op cmd len).toNat = op.toNat * 16777216 + cmd.number.toNat * 65536 + len.toNat := by
  have h0 : (op ++ 0#5).toNat = op.toNat <<< 5 := by
    simpa using BitVec.toNat_append op 0#5
  have h1 : (op ++ 0#5 ++ cmd.number).toNat = (op ++ 0#5).toNat <<< 3 ||| cmd.number.toNat :=
    BitVec.toNat_append (op ++ 0#5) cmd.number
  have h2 : (formatF op cmd len).toNat = (op ++ 0#5 ++ cmd.number).toNat <<< 16 ||| len.toNat :=
    BitVec.toNat_append (op ++ 0#5 ++ cmd.number) len
  rw [h2, h1, h0, ← Nat.shiftLeft_add_eq_or_of_lt len.isLt, ← Nat.shiftLeft_add_eq_or_of_lt cmd.number.isLt]
  simp only [Nat.shiftLeft_eq]
  omega

/-- The byte operand of an encoded word (R82). -/
@[simp] theorem imm8Of_formatB (op imm8 : Byte) : imm8Of (formatB op imm8) = imm8 := by
  have := imm8.isLt
  apply BitVec.eq_of_toNat_eq
  rw [imm8Of_toNat, formatB_toNat]
  omega

/-- The register index of an encoded word (R82). -/
@[simp] theorem regOf_formatB (op reg : Byte) : regOf (formatB op reg) = reg := imm8Of_formatB op reg

/-- The length operand of an encoded word (R82). -/
@[simp] theorem lenOf_formatF (op : Byte) (cmd : CommandId) (len : Half) : lenOf (formatF op cmd len) = len := by
  have := len.isLt
  apply BitVec.eq_of_toNat_eq
  rw [lenOf_toNat, formatF_toNat]
  omega

/-- Four bytes in a row as a number (20_memory.md R57). -/
theorem four_bytes_toNat (b3 b2 b1 b0 : Byte) :
    (b3 ++ b2 ++ b1 ++ b0 : OpWord).toNat =
      b3.toNat * 16777216 + b2.toNat * 65536 + b1.toNat * 256 + b0.toNat := by
  have h0 : (b3 ++ b2).toNat = b3.toNat <<< 8 ||| b2.toNat := BitVec.toNat_append b3 b2
  have h1 : (b3 ++ b2 ++ b1).toNat = (b3 ++ b2).toNat <<< 8 ||| b1.toNat := BitVec.toNat_append (b3 ++ b2) b1
  have h2 : (b3 ++ b2 ++ b1 ++ b0).toNat = (b3 ++ b2 ++ b1).toNat <<< 8 ||| b0.toNat :=
    BitVec.toNat_append (b3 ++ b2 ++ b1) b0
  refine h2.trans ?_
  rw [h1, h0, ← Nat.shiftLeft_add_eq_or_of_lt b0.isLt, ← Nat.shiftLeft_add_eq_or_of_lt b1.isLt,
    ← Nat.shiftLeft_add_eq_or_of_lt b2.isLt]
  simp only [Nat.shiftLeft_eq]
  omega

/-! ### Commands -/

/-- The number of a CommandId names it again (R79). -/
@[simp] theorem CommandId.ofNumber_number (c : CommandId) : CommandId.ofNumber c.number = c := by
  cases c <;> rfl

/-- Every 3-bit number is the number of the CommandId it names (R79). -/
@[simp] theorem CommandId.number_ofNumber (n : BitVec 3) : (CommandId.ofNumber n).number = n := by
  revert n; decide

/-- The command operand of an encoded word (R82). -/
@[simp] theorem cmdOf_formatF (op : Byte) (cmd : CommandId) (len : Half) : cmdOf (formatF op cmd len) = cmd := by
  have h : (formatF op cmd len).extractLsb' 16 3 = cmd.number := by
    have h1 := len.isLt
    have h2 := cmd.number.isLt
    apply BitVec.eq_of_toNat_eq
    simp only [BitVec.extractLsb'_toNat, formatF_toNat, Nat.shiftRight_eq_div_pow]
    omega
  simp [cmdOf, h]

/-- The table of R80 read backwards gives each command back (R81). -/
@[simp] theorem commandOfOpcode_OPC (c : CommandId) : commandOfOpcode (Config.OPC c) = some c := by
  cases c <;> rfl

/-- A byte that reads as a command is that command's opcode (R81). -/
theorem OPC_of_commandOfOpcode (b : Byte) (c : CommandId) (h : commandOfOpcode b = some c) : Config.OPC c = b := by
  have := List.find?_some h
  simpa using this

end Sys2Proof
end

