-- ==== Sys2Proof/Laws/State.lean ====
section
/-! SUPPORT. One lemma per field per named update of the state, each true by definition, so that no proof unfolds a record
update; and the two cases of taking a fault. -/

namespace Sys2Proof.Machine

variable (s : State)

/-! ### `State.quiet` -/

@[simp] theorem State.quiet_crc : s.quiet.crc = s.crc := rfl
@[simp] theorem State.quiet_frBusy : s.quiet.frBusy = s.frBusy := rfl
@[simp] theorem State.quiet_frCmd : s.quiet.frCmd = s.frCmd := rfl
@[simp] theorem State.quiet_frLen : s.quiet.frLen = s.frLen := rfl
@[simp] theorem State.quiet_frRem : s.quiet.frRem = s.frRem := rfl
@[simp] theorem State.quiet_serIdx : s.quiet.serIdx = s.serIdx := rfl
@[simp] theorem State.quiet_row : s.quiet.row = s.row := rfl
@[simp] theorem State.quiet_fault : s.quiet.fault = s.fault := rfl
@[simp] theorem State.quiet_faultCause : s.quiet.faultCause = s.faultCause := rfl
@[simp] theorem State.quiet_faultOp : s.quiet.faultOp = s.faultOp := rfl
@[simp] theorem State.quiet_egress : s.quiet.egress = s.egress := rfl
@[simp] theorem State.quiet_rsp : s.quiet.rsp = none := rfl
@[simp] theorem State.quiet_inputs : s.quiet.inputs = s.inputs := rfl
@[simp] theorem State.quiet_readerCmd : s.quiet.readerCmd = s.readerCmd := rfl

/-! ### `State.respond` -/

@[simp] theorem State.respond_crc (v : Half) : (s.respond v).crc = s.crc := rfl
@[simp] theorem State.respond_frBusy (v : Half) : (s.respond v).frBusy = s.frBusy := rfl
@[simp] theorem State.respond_frCmd (v : Half) : (s.respond v).frCmd = s.frCmd := rfl
@[simp] theorem State.respond_frLen (v : Half) : (s.respond v).frLen = s.frLen := rfl
@[simp] theorem State.respond_frRem (v : Half) : (s.respond v).frRem = s.frRem := rfl
@[simp] theorem State.respond_serIdx (v : Half) : (s.respond v).serIdx = s.serIdx := rfl
@[simp] theorem State.respond_row (v : Half) : (s.respond v).row = s.row := rfl
@[simp] theorem State.respond_fault (v : Half) : (s.respond v).fault = s.fault := rfl
@[simp] theorem State.respond_faultCause (v : Half) : (s.respond v).faultCause = s.faultCause := rfl
@[simp] theorem State.respond_faultOp (v : Half) : (s.respond v).faultOp = s.faultOp := rfl
@[simp] theorem State.respond_egress (v : Half) : (s.respond v).egress = s.egress := rfl
@[simp] theorem State.respond_rsp (v : Half) : (s.respond v).rsp = some v := rfl
@[simp] theorem State.respond_inputs (v : Half) : (s.respond v).inputs = s.inputs := rfl
@[simp] theorem State.respond_readerCmd (v : Half) : (s.respond v).readerCmd = s.readerCmd := rfl

/-! ### `State.emit` -/

@[simp] theorem State.emit_crc (bs : List Byte) : (s.emit bs).crc = s.crc := rfl
@[simp] theorem State.emit_frBusy (bs : List Byte) : (s.emit bs).frBusy = s.frBusy := rfl
@[simp] theorem State.emit_frCmd (bs : List Byte) : (s.emit bs).frCmd = s.frCmd := rfl
@[simp] theorem State.emit_frLen (bs : List Byte) : (s.emit bs).frLen = s.frLen := rfl
@[simp] theorem State.emit_frRem (bs : List Byte) : (s.emit bs).frRem = s.frRem := rfl
@[simp] theorem State.emit_serIdx (bs : List Byte) : (s.emit bs).serIdx = s.serIdx := rfl
@[simp] theorem State.emit_row (bs : List Byte) : (s.emit bs).row = s.row := rfl
@[simp] theorem State.emit_fault (bs : List Byte) : (s.emit bs).fault = s.fault := rfl
@[simp] theorem State.emit_faultCause (bs : List Byte) : (s.emit bs).faultCause = s.faultCause := rfl
@[simp] theorem State.emit_faultOp (bs : List Byte) : (s.emit bs).faultOp = s.faultOp := rfl
@[simp] theorem State.emit_egress (bs : List Byte) : (s.emit bs).egress = s.egress ++ bs := rfl
@[simp] theorem State.emit_rsp (bs : List Byte) : (s.emit bs).rsp = s.rsp := rfl
@[simp] theorem State.emit_inputs (bs : List Byte) : (s.emit bs).inputs = s.inputs := rfl
@[simp] theorem State.emit_readerCmd (bs : List Byte) : (s.emit bs).readerCmd = s.readerCmd := rfl

/-! ### `State.crcInit` -/

@[simp] theorem State.crcInit_crc : s.crcInit.crc = Config.CRC_INIT := rfl
@[simp] theorem State.crcInit_frBusy : s.crcInit.frBusy = s.frBusy := rfl
@[simp] theorem State.crcInit_frCmd : s.crcInit.frCmd = s.frCmd := rfl
@[simp] theorem State.crcInit_frLen : s.crcInit.frLen = s.frLen := rfl
@[simp] theorem State.crcInit_frRem : s.crcInit.frRem = s.frRem := rfl
@[simp] theorem State.crcInit_serIdx : s.crcInit.serIdx = s.serIdx := rfl
@[simp] theorem State.crcInit_row : s.crcInit.row = s.row := rfl
@[simp] theorem State.crcInit_fault : s.crcInit.fault = s.fault := rfl
@[simp] theorem State.crcInit_faultCause : s.crcInit.faultCause = s.faultCause := rfl
@[simp] theorem State.crcInit_faultOp : s.crcInit.faultOp = s.faultOp := rfl
@[simp] theorem State.crcInit_egress : s.crcInit.egress = s.egress := rfl
@[simp] theorem State.crcInit_rsp : s.crcInit.rsp = s.rsp := rfl
@[simp] theorem State.crcInit_inputs : s.crcInit.inputs = s.inputs := rfl
@[simp] theorem State.crcInit_readerCmd : s.crcInit.readerCmd = s.readerCmd := rfl

/-! ### `State.crcAdd` -/

@[simp] theorem State.crcAdd_crc (b : Byte) : (s.crcAdd b).crc = crcStep s.crc b := rfl
@[simp] theorem State.crcAdd_frBusy (b : Byte) : (s.crcAdd b).frBusy = s.frBusy := rfl
@[simp] theorem State.crcAdd_frCmd (b : Byte) : (s.crcAdd b).frCmd = s.frCmd := rfl
@[simp] theorem State.crcAdd_frLen (b : Byte) : (s.crcAdd b).frLen = s.frLen := rfl
@[simp] theorem State.crcAdd_frRem (b : Byte) : (s.crcAdd b).frRem = s.frRem := rfl
@[simp] theorem State.crcAdd_serIdx (b : Byte) : (s.crcAdd b).serIdx = s.serIdx := rfl
@[simp] theorem State.crcAdd_row (b : Byte) : (s.crcAdd b).row = s.row := rfl
@[simp] theorem State.crcAdd_fault (b : Byte) : (s.crcAdd b).fault = s.fault := rfl
@[simp] theorem State.crcAdd_faultCause (b : Byte) : (s.crcAdd b).faultCause = s.faultCause := rfl
@[simp] theorem State.crcAdd_faultOp (b : Byte) : (s.crcAdd b).faultOp = s.faultOp := rfl
@[simp] theorem State.crcAdd_egress (b : Byte) : (s.crcAdd b).egress = s.egress := rfl
@[simp] theorem State.crcAdd_rsp (b : Byte) : (s.crcAdd b).rsp = s.rsp := rfl
@[simp] theorem State.crcAdd_inputs (b : Byte) : (s.crcAdd b).inputs = s.inputs := rfl
@[simp] theorem State.crcAdd_readerCmd (b : Byte) : (s.crcAdd b).readerCmd = s.readerCmd := rfl

/-! ### `State.streamByte` -/

@[simp] theorem State.streamByte_crc (b : Byte) : (s.streamByte b).crc = crcStep s.crc b := rfl
@[simp] theorem State.streamByte_frBusy (b : Byte) : (s.streamByte b).frBusy = s.frBusy := rfl
@[simp] theorem State.streamByte_frCmd (b : Byte) : (s.streamByte b).frCmd = s.frCmd := rfl
@[simp] theorem State.streamByte_frLen (b : Byte) : (s.streamByte b).frLen = s.frLen := rfl
@[simp] theorem State.streamByte_frRem (b : Byte) : (s.streamByte b).frRem = s.frRem := rfl
@[simp] theorem State.streamByte_serIdx (b : Byte) : (s.streamByte b).serIdx = s.serIdx := rfl
@[simp] theorem State.streamByte_row (b : Byte) : (s.streamByte b).row = s.row := rfl
@[simp] theorem State.streamByte_fault (b : Byte) : (s.streamByte b).fault = s.fault := rfl
@[simp] theorem State.streamByte_faultCause (b : Byte) : (s.streamByte b).faultCause = s.faultCause := rfl
@[simp] theorem State.streamByte_faultOp (b : Byte) : (s.streamByte b).faultOp = s.faultOp := rfl
@[simp] theorem State.streamByte_egress (b : Byte) : (s.streamByte b).egress = s.egress ++ [b] := rfl
@[simp] theorem State.streamByte_rsp (b : Byte) : (s.streamByte b).rsp = s.rsp := rfl
@[simp] theorem State.streamByte_inputs (b : Byte) : (s.streamByte b).inputs = s.inputs := rfl
@[simp] theorem State.streamByte_readerCmd (b : Byte) : (s.streamByte b).readerCmd = s.readerCmd := rfl

/-! ### `State.putDot` -/

@[simp] theorem State.putDot_crc (i : Nat) (h : i / 8 < Config.ROW_BYTES) (v : Bool) :
    (s.putDot i h v).crc = s.crc := rfl
@[simp] theorem State.putDot_frBusy (i : Nat) (h : i / 8 < Config.ROW_BYTES) (v : Bool) :
    (s.putDot i h v).frBusy = s.frBusy := rfl
@[simp] theorem State.putDot_frCmd (i : Nat) (h : i / 8 < Config.ROW_BYTES) (v : Bool) :
    (s.putDot i h v).frCmd = s.frCmd := rfl
@[simp] theorem State.putDot_frLen (i : Nat) (h : i / 8 < Config.ROW_BYTES) (v : Bool) :
    (s.putDot i h v).frLen = s.frLen := rfl
@[simp] theorem State.putDot_frRem (i : Nat) (h : i / 8 < Config.ROW_BYTES) (v : Bool) :
    (s.putDot i h v).frRem = s.frRem := rfl
@[simp] theorem State.putDot_serIdx (i : Nat) (h : i / 8 < Config.ROW_BYTES) (v : Bool) :
    (s.putDot i h v).serIdx = s.serIdx := rfl
@[simp] theorem State.putDot_row (i : Nat) (h : i / 8 < Config.ROW_BYTES) (v : Bool) :
    (s.putDot i h v).row = s.row.set (i / 8) (assignBit s.row[i / 8] (7 - i % 8) v) h := rfl
@[simp] theorem State.putDot_fault (i : Nat) (h : i / 8 < Config.ROW_BYTES) (v : Bool) :
    (s.putDot i h v).fault = s.fault := rfl
@[simp] theorem State.putDot_faultCause (i : Nat) (h : i / 8 < Config.ROW_BYTES) (v : Bool) :
    (s.putDot i h v).faultCause = s.faultCause := rfl
@[simp] theorem State.putDot_faultOp (i : Nat) (h : i / 8 < Config.ROW_BYTES) (v : Bool) :
    (s.putDot i h v).faultOp = s.faultOp := rfl
@[simp] theorem State.putDot_egress (i : Nat) (h : i / 8 < Config.ROW_BYTES) (v : Bool) :
    (s.putDot i h v).egress = s.egress := rfl
@[simp] theorem State.putDot_rsp (i : Nat) (h : i / 8 < Config.ROW_BYTES) (v : Bool) :
    (s.putDot i h v).rsp = s.rsp := rfl
@[simp] theorem State.putDot_inputs (i : Nat) (h : i / 8 < Config.ROW_BYTES) (v : Bool) :
    (s.putDot i h v).inputs = s.inputs := rfl
@[simp] theorem State.putDot_readerCmd (i : Nat) (h : i / 8 < Config.ROW_BYTES) (v : Bool) :
    (s.putDot i h v).readerCmd = s.readerCmd := rfl

/-! ### `State.clearRow` -/

@[simp] theorem State.clearRow_crc : s.clearRow.crc = s.crc := rfl
@[simp] theorem State.clearRow_frBusy : s.clearRow.frBusy = s.frBusy := rfl
@[simp] theorem State.clearRow_frCmd : s.clearRow.frCmd = s.frCmd := rfl
@[simp] theorem State.clearRow_frLen : s.clearRow.frLen = s.frLen := rfl
@[simp] theorem State.clearRow_frRem : s.clearRow.frRem = s.frRem := rfl
@[simp] theorem State.clearRow_serIdx : s.clearRow.serIdx = 0 := rfl
@[simp] theorem State.clearRow_row : s.clearRow.row = Vector.replicate Config.ROW_BYTES 0x00 := rfl
@[simp] theorem State.clearRow_fault : s.clearRow.fault = s.fault := rfl
@[simp] theorem State.clearRow_faultCause : s.clearRow.faultCause = s.faultCause := rfl
@[simp] theorem State.clearRow_faultOp : s.clearRow.faultOp = s.faultOp := rfl
@[simp] theorem State.clearRow_egress : s.clearRow.egress = s.egress := rfl
@[simp] theorem State.clearRow_rsp : s.clearRow.rsp = s.rsp := rfl
@[simp] theorem State.clearRow_inputs : s.clearRow.inputs = s.inputs := rfl
@[simp] theorem State.clearRow_readerCmd : s.clearRow.readerCmd = s.readerCmd := rfl

/-! ### `State.applyReset` -/

@[simp] theorem State.applyReset_crc : s.applyReset.crc = 0x00 := rfl
@[simp] theorem State.applyReset_frBusy : s.applyReset.frBusy = false := rfl
@[simp] theorem State.applyReset_frCmd : s.applyReset.frCmd = .paper := rfl
@[simp] theorem State.applyReset_frLen : s.applyReset.frLen = 0 := rfl
@[simp] theorem State.applyReset_frRem : s.applyReset.frRem = 0 := rfl
@[simp] theorem State.applyReset_serIdx : s.applyReset.serIdx = 0 := rfl
@[simp] theorem State.applyReset_row : s.applyReset.row = Vector.replicate Config.ROW_BYTES 0x00 := rfl
@[simp] theorem State.applyReset_fault : s.applyReset.fault = false := rfl
@[simp] theorem State.applyReset_faultCause : s.applyReset.faultCause = .none := rfl
@[simp] theorem State.applyReset_faultOp : s.applyReset.faultOp = 0 := rfl
@[simp] theorem State.applyReset_egress : s.applyReset.egress = s.egress := rfl
@[simp] theorem State.applyReset_rsp : s.applyReset.rsp = none := rfl
@[simp] theorem State.applyReset_inputs : s.applyReset.inputs = s.inputs := rfl
@[simp] theorem State.applyReset_readerCmd : s.applyReset.readerCmd = s.readerCmd := rfl

/-! ### `State.discard` -/

@[simp] theorem State.discard_crc : s.discard.crc = s.crc := rfl
@[simp] theorem State.discard_frBusy : s.discard.frBusy = s.frBusy := rfl
@[simp] theorem State.discard_frCmd : s.discard.frCmd = s.frCmd := rfl
@[simp] theorem State.discard_frLen : s.discard.frLen = s.frLen := rfl
@[simp] theorem State.discard_frRem : s.discard.frRem = s.frRem := rfl
@[simp] theorem State.discard_serIdx : s.discard.serIdx = s.serIdx := rfl
@[simp] theorem State.discard_row : s.discard.row = s.row := rfl
@[simp] theorem State.discard_fault : s.discard.fault = s.fault := rfl
@[simp] theorem State.discard_faultCause : s.discard.faultCause = s.faultCause := rfl
@[simp] theorem State.discard_faultOp : s.discard.faultOp = s.faultOp := rfl
@[simp] theorem State.discard_egress : s.discard.egress = s.egress := rfl
@[simp] theorem State.discard_rsp : s.discard.rsp = none := rfl
@[simp] theorem State.discard_inputs : s.discard.inputs = s.inputs := rfl
@[simp] theorem State.discard_readerCmd : s.discard.readerCmd = s.readerCmd := rfl

/-! ### `State.readerAnswer` -/

@[simp] theorem State.readerAnswer_crc (c : Option CommandId) : (s.readerAnswer c).crc = s.crc := rfl
@[simp] theorem State.readerAnswer_frBusy (c : Option CommandId) : (s.readerAnswer c).frBusy = s.frBusy := rfl
@[simp] theorem State.readerAnswer_frCmd (c : Option CommandId) : (s.readerAnswer c).frCmd = s.frCmd := rfl
@[simp] theorem State.readerAnswer_frLen (c : Option CommandId) : (s.readerAnswer c).frLen = s.frLen := rfl
@[simp] theorem State.readerAnswer_frRem (c : Option CommandId) : (s.readerAnswer c).frRem = s.frRem := rfl
@[simp] theorem State.readerAnswer_serIdx (c : Option CommandId) : (s.readerAnswer c).serIdx = s.serIdx := rfl
@[simp] theorem State.readerAnswer_row (c : Option CommandId) : (s.readerAnswer c).row = s.row := rfl
@[simp] theorem State.readerAnswer_fault (c : Option CommandId) : (s.readerAnswer c).fault = s.fault := rfl
@[simp] theorem State.readerAnswer_faultCause (c : Option CommandId) :
    (s.readerAnswer c).faultCause = s.faultCause := rfl
@[simp] theorem State.readerAnswer_faultOp (c : Option CommandId) : (s.readerAnswer c).faultOp = s.faultOp := rfl
@[simp] theorem State.readerAnswer_egress (c : Option CommandId) : (s.readerAnswer c).egress = s.egress := rfl
@[simp] theorem State.readerAnswer_rsp (c : Option CommandId) : (s.readerAnswer c).rsp = none := rfl
@[simp] theorem State.readerAnswer_inputs (c : Option CommandId) : (s.readerAnswer c).inputs = s.inputs := rfl
@[simp] theorem State.readerAnswer_readerCmd (c : Option CommandId) : (s.readerAnswer c).readerCmd = c := rfl

/-! ### `State.raise` -/

/-- While `fault` = 1 a fault is discarded (60_exceptions.md R205). -/
@[simp] theorem State.raise_of_fault (c : Cause) (w : OpWord) (h : s.fault = true) : s.raise c w = s.discard := by
  simp [State.raise, h]

/-- While `fault` = 0 a fault is entered (60_exceptions.md R204). -/
@[simp] theorem State.raise_of_clear (c : Cause) (w : OpWord) (h : s.fault = false) :
    s.raise c w = { s with fault := true, faultCause := c, faultOp := w, rsp := none } := by
  simp [State.raise, h]

/-- Either way `fault` is set afterwards. -/
@[simp] theorem State.raise_fault (c : Cause) (w : OpWord) : (s.raise c w).fault = true := by
  cases h : s.fault <;> simp [h]

@[simp] theorem State.raise_crc (c : Cause) (w : OpWord) : (s.raise c w).crc = s.crc := by
  cases h : s.fault <;> simp [h]

@[simp] theorem State.raise_frBusy (c : Cause) (w : OpWord) : (s.raise c w).frBusy = s.frBusy := by
  cases h : s.fault <;> simp [h]

@[simp] theorem State.raise_frCmd (c : Cause) (w : OpWord) : (s.raise c w).frCmd = s.frCmd := by
  cases h : s.fault <;> simp [h]

@[simp] theorem State.raise_frLen (c : Cause) (w : OpWord) : (s.raise c w).frLen = s.frLen := by
  cases h : s.fault <;> simp [h]

@[simp] theorem State.raise_frRem (c : Cause) (w : OpWord) : (s.raise c w).frRem = s.frRem := by
  cases h : s.fault <;> simp [h]

@[simp] theorem State.raise_serIdx (c : Cause) (w : OpWord) : (s.raise c w).serIdx = s.serIdx := by
  cases h : s.fault <;> simp [h]

@[simp] theorem State.raise_row (c : Cause) (w : OpWord) : (s.raise c w).row = s.row := by
  cases h : s.fault <;> simp [h]

@[simp] theorem State.raise_egress (c : Cause) (w : OpWord) : (s.raise c w).egress = s.egress := by
  cases h : s.fault <;> simp [h]

@[simp] theorem State.raise_rsp (c : Cause) (w : OpWord) : (s.raise c w).rsp = none := by
  cases h : s.fault <;> simp [h]

@[simp] theorem State.raise_inputs (c : Cause) (w : OpWord) : (s.raise c w).inputs = s.inputs := by
  cases h : s.fault <;> simp [h]

@[simp] theorem State.raise_readerCmd (c : Cause) (w : OpWord) : (s.raise c w).readerCmd = s.readerCmd := by
  cases h : s.fault <;> simp [h]

/-! ### `State.gated` -/

/-- While `fault` = 1 a gated operation is discarded (60_exceptions.md R205). -/
@[simp] theorem State.gated_of_fault (body : Host.Outcome State Fault Refusal) (h : s.fault = true) :
    s.gated body = .next s.discard := by
  simp [State.gated, h]

/-- While `fault` = 0 a gated operation executes. -/
@[simp] theorem State.gated_of_clear (body : Host.Outcome State Fault Refusal) (h : s.fault = false) :
    s.gated body = body := by
  simp [State.gated, h]

/-! ### Steps in which no instruction executes -/

@[simp] theorem State.idleStep_eq (s : State) : s.idleStep = s.quiet := rfl

@[simp] theorem State.noCommand_eq (s : State) : s.noCommand = s.readerAnswer none := rfl

end Sys2Proof.Machine
end

