-- ==== Sys2Proof/Laws/Wire.lean ====
section
/-! SUPPORT. Laws of the wire format: the checksum loop, the lengths of header and frame, the dots of a row. -/

namespace Sys2Proof.Machine

/-! ### Checksum -/

@[simp] theorem checksumFromWith_nil (T : Byte → Byte) (c : Byte) : checksumFromWith T c [] = c := rfl

@[simp] theorem checksumFromWith_cons (T : Byte → Byte) (c b : Byte) (bs : List Byte) :
    checksumFromWith T c (b :: bs) = checksumFromWith T (crcStepWith T c b) bs := rfl

/-- The loop over a concatenation goes on where the loop over its first part stopped. -/
theorem checksumFromWith_append (T : Byte → Byte) (c : Byte) (s t : List Byte) :
    checksumFromWith T c (s ++ t) = checksumFromWith T (checksumFromWith T c s) t :=
  List.foldl_append

@[simp] theorem checksumFrom_nil (c : Byte) : checksumFrom c [] = c := rfl

@[simp] theorem checksumFrom_cons (c b : Byte) (bs : List Byte) :
    checksumFrom c (b :: bs) = checksumFrom (crcStep c b) bs := rfl

theorem checksumFrom_append (c : Byte) (s t : List Byte) :
    checksumFrom c (s ++ t) = checksumFrom (checksumFrom c s) t := checksumFromWith_append _ c s t

/-- `checksum` is the loop from `CRC_INIT` with this hardware's table. -/
theorem checksum_eq (bs : List Byte) : checksum bs = checksumFrom Config.CRC_INIT bs := rfl

@[simp] theorem checksum_nil : checksum [] = 0x00 := rfl

theorem checksum_snoc (bs : List Byte) (b : Byte) : checksum (bs ++ [b]) = crcStep (checksum bs) b := by
  simp [checksum_eq, checksumFrom_append]

/-! ### Frame -/

@[simp] theorem header_length (cmd : CommandId) (len : Half) : (header cmd len).length = 6 := rfl

@[simp] theorem footer_length (c : Byte) : (footer c).length = 2 := rfl

@[simp] theorem encodeFrame_length (cmd : CommandId) (p : List Byte) : (encodeFrame cmd p).length = p.length + 8 := by
  simp [encodeFrame]; omega

/-! ### Row -/

/-- A dot within the row is a bit of one of its bytes (10_state.md R30). -/
theorem dotOf_eq (row : Vector Byte Config.ROW_BYTES) (i : Nat) (h : i / 8 < Config.ROW_BYTES) :
    dotOf row i = row[i / 8].getLsbD (7 - i % 8) := by
  unfold dotOf; rw [Vector.getElem?_eq_getElem h]

/-- A clear row has no dark dot. -/
@[simp] theorem dotOf_clear (i : Nat) : dotOf (Vector.replicate Config.ROW_BYTES 0x00) i = false := by
  by_cases h : i / 8 < Config.ROW_BYTES
  · rw [dotOf_eq _ _ h, Vector.getElem_replicate]; simp
  · unfold dotOf; rw [Vector.getElem?_eq_none (by omega)]

end Sys2Proof.Machine
end

