-- ==== Sys2Proof/Laws/Ops.lean ====
section
/-! SUPPORT. One law per shared operation: what streaming bytes, writing a dot, reading an index and taking an input do. -/

namespace Sys2Proof.Machine

/-! ### Streaming -/

@[simp] theorem State.streamBytes_nil (s : State) : s.streamBytes [] = s := rfl

@[simp] theorem State.streamBytes_cons (b : Byte) (bs : List Byte) (s : State) :
    s.streamBytes (b :: bs) = (s.streamByte b).streamBytes bs := rfl

/-- Streaming appends the bytes and runs the checksum loop over them; nothing else changes. -/
theorem State.streamBytes_eq (bs : List Byte) (s : State) :
    s.streamBytes bs = { s with egress := s.egress ++ bs, crc := checksumFrom s.crc bs } := by
  induction bs generalizing s with
  | nil => simp
  | cons b bs ih => simp [ih, State.streamByte, State.emit, State.crcAdd]

/-! ### Row -/

/-- The assigned bit reads as assigned, the others as before. -/
theorem getLsbD_assignBit (b : Byte) (k j : Nat) (v : Bool) (hk : k < 8) :
    (assignBit b k v).getLsbD j = if j = k then v else b.getLsbD j := by
  by_cases hj : j < 8
  · cases v <;> interval_cases k <;> interval_cases j <;> simp [assignBit]
  · have hne : j ≠ k := by omega
    simp [hne, BitVec.getLsbD_of_ge _ _ (by omega : 8 ≤ j)]

/-- Writing dot `i` writes that dot and no other (42_serializer.md R152). -/
theorem State.dotOf_putDot (i j : Nat) (h : i / 8 < Config.ROW_BYTES) (v : Bool) (s : State) :
    dotOf (s.putDot i h v).row j = if j = i then v else dotOf s.row j := by
  by_cases hj : j / 8 < Config.ROW_BYTES
  · rw [dotOf_eq _ _ hj, dotOf_eq _ _ hj, State.putDot_row, Vector.getElem_set]
    by_cases hb : i / 8 = j / 8
    · have hk : (7 - j % 8 = 7 - i % 8) ↔ j = i := by omega
      simp only [hb, if_true]
      rw [getLsbD_assignBit _ _ _ _ (by omega)]
      simp only [hk]
    · have : j ≠ i := by rintro rfl; exact hb rfl
      simp [hb, this]
  · have : j ≠ i := by rintro rfl; exact hj h
    rw [if_neg this]; unfold dotOf; rw [Vector.getElem?_eq_none (by omega), Vector.getElem?_eq_none (by omega)]

/-! ### Read index space -/

/-- The index of a register names it (10_state.md R38). -/
@[simp] theorem regOfIndex_index (r : Reg) : regOfIndex r.index = some r := by
  cases r with
  | row k => revert k; decide
  | _ => rfl

/-- The reserved indices (10_state.md R46). -/
theorem regOfIndex_eq_none_iff (index : Byte) :
    regOfIndex index = none ↔ (9 ≤ index.toNat ∧ index.toNat ≤ 15) ∨ 64 ≤ index.toNat := by
  revert index; decide

/-! ### The host's next input -/

theorem State.fetch_idle (s : State) (h : s.inputs = []) : s.fetch = (.idle, s) := by
  simp [State.fetch, h]

theorem State.fetch_code (s : State) (c : Code) (rest : List Input) (h : s.inputs = .code c :: rest) :
    s.fetch = (fetchedOf c, { s with inputs := rest }) := by
  simp [State.fetch, h]

theorem State.fetch_resetI (s : State) (rest : List Input) (h : s.inputs = .resetI :: rest) :
    s.fetch = (.resetI, { s with inputs := rest }) := by
  simp [State.fetch, h]

theorem fetchedOf_ok (c : Code) (i : Instr) (h : decode c = .ok i) : fetchedOf c = .instr i := by
  simp [fetchedOf, h]

theorem fetchedOf_op_error (w : OpWord) (e : Reject) (h : decode (.op w) = .error e) :
    fetchedOf (.op w) = .illegal w := by
  simp [fetchedOf, h]

theorem fetchedOf_frame_error (b : Byte) (e : Reject) (h : decode (.frame b) = .error e) :
    fetchedOf (.frame b) = .noCommand := by
  simp [fetchedOf, h]

end Sys2Proof.Machine
end

