-- ==== Sys2Proof/Laws/Exec.lean ====
section
/-! SUPPORT. Everything each instruction can do, said once: if it answers a next state, one of the listed cases holds. The
frame opcode rows have one case, their definition. -/

namespace Sys2Proof.Machine

variable {s t : State}

/-- The gating of R205: discarded, or executed. -/
theorem gated_cases {body : Host.Outcome State Fault Refusal} (h : s.gated body = .next t) :
    (s.fault = true ∧ t = s.discard) ∨ (s.fault = false ∧ body = .next t) := by
  cases hf : s.fault with
  | true => left; simpa [hf, eq_comm] using h
  | false => right; simpa [hf] using h

/-- Taking a fault (R204), or a discard (R205). -/
theorem raise_cases (c : Cause) (w : OpWord) :
    (s.fault = true ∧ s.raise c w = s.discard) ∨
    (s.fault = false ∧ s.raise c w = { s with fault := true, faultCause := c, faultOp := w, rsp := none }) := by
  cases hf : s.fault <;> simp [hf]

theorem execNop_cases (h : execNop s = .next t) : t = s.quiet := by
  exact (Host.Outcome.next.inj h).symm

theorem execSrst_cases (h : execSrst s = .next t) : t = s.applyReset := by
  exact (Host.Outcome.next.inj h).symm

theorem execRdreg_cases {reg : Byte} (h : execRdreg reg s = .next t) :
    (∃ r, regOfIndex reg = some r ∧ t = s.respond (s.readReg r)) ∨
    (regOfIndex reg = none ∧ t = s.raise .badReg (Instr.rdreg reg).opWord) := by
  unfold execRdreg at h
  split at h
  next r hr => exact .inl ⟨r, hr, (Host.Outcome.next.inj h).symm⟩
  next hr => exact .inr ⟨hr, (Host.Outcome.next.inj h).symm⟩

theorem execCrcClr_cases (h : execCrcClr s = .next t) :
    (s.fault = true ∧ t = s.discard) ∨
    (s.fault = false ∧ s.frBusy = true ∧ t = s.raise .frameBusy Instr.crcClr.opWord) ∨
    (s.fault = false ∧ s.frBusy = false ∧ t = s.crcInit.quiet) := by
  obtain h | ⟨hf, h⟩ := gated_cases h
  · exact .inl h
  cases hb : s.frBusy <;> simp_all

theorem execCrcUpd_cases {imm8 : Byte} (h : execCrcUpd imm8 s = .next t) :
    (s.fault = true ∧ t = s.discard) ∨
    (s.fault = false ∧ s.frBusy = true ∧ t = s.raise .frameBusy (Instr.crcUpd imm8).opWord) ∨
    (s.fault = false ∧ s.frBusy = false ∧ t = (s.crcAdd imm8).quiet) := by
  obtain h | ⟨hf, h⟩ := gated_cases h
  · exact .inl h
  cases hb : s.frBusy <;> simp_all

theorem execCrcTab_cases {imm8 : Byte} (h : execCrcTab imm8 s = .next t) :
    (s.fault = true ∧ t = s.discard) ∨
    (s.fault = false ∧ t = s.respond ((Config.T imm8).zeroExtend 16)) := by
  obtain h | ⟨hf, h⟩ := gated_cases h
  · exact .inl h
  · exact .inr ⟨hf, (Host.Outcome.next.inj h).symm⟩

theorem execFrBegin_cases {cmd : CommandId} {len : Half} (h : execFrBegin cmd len s = .next t) :
    (s.fault = true ∧ t = s.discard) ∨
    (s.fault = false ∧ s.frBusy = true ∧ t = s.raise .frameBusy (Instr.frBegin cmd len).opWord) ∨
    (s.fault = false ∧ s.frBusy = false ∧ len = 0 ∧
      t = { s with
        egress := s.egress ++ header cmd len ++ footer Config.CRC_INIT, crc := Config.CRC_INIT, frCmd := cmd,
        frLen := len, frRem := 0, frBusy := false, rsp := none }) ∨
    (s.fault = false ∧ s.frBusy = false ∧ len ≠ 0 ∧
      t = { s with
        egress := s.egress ++ header cmd len, crc := Config.CRC_INIT, frCmd := cmd, frLen := len, frRem := len,
        frBusy := true, rsp := none }) := by
  obtain h | ⟨hf, h⟩ := gated_cases h
  · exact .inl h
  cases hb : s.frBusy with
  | true => simp_all
  | false =>
    by_cases hl : len = 0 <;> simp_all [State.emit, State.crcInit]

theorem execFrData_cases {imm8 : Byte} (h : execFrData imm8 s = .next t) :
    (s.fault = true ∧ t = s.discard) ∨
    (s.fault = false ∧ s.frBusy = false ∧ t = s.raise .noFrame (Instr.frData imm8).opWord) ∨
    (s.fault = false ∧ s.frBusy = true ∧ s.frRem - 1 = 0 ∧
      t = { s with
        egress := s.egress ++ [imm8] ++ footer (crcStep s.crc imm8), crc := crcStep s.crc imm8, frRem := 0,
        frBusy := false, rsp := none }) ∨
    (s.fault = false ∧ s.frBusy = true ∧ s.frRem - 1 ≠ 0 ∧
      t = { s with
        egress := s.egress ++ [imm8], crc := crcStep s.crc imm8, frRem := s.frRem - 1, rsp := none }) := by
  obtain h | ⟨hf, h⟩ := gated_cases h
  · exact .inl h
  cases hb : s.frBusy with
  | false => simp_all
  | true =>
    by_cases hl : s.frRem - 1 = 0 <;>
      simp_all [State.streamByte, State.emit, State.crcAdd, State.quiet]

theorem execFrAbort_cases (h : execFrAbort s = .next t) :
    (s.fault = true ∧ t = s.discard) ∨
    (s.fault = false ∧ s.frBusy = true ∧ t = { s with frBusy := false, frRem := 0, rsp := none }) ∨
    (s.fault = false ∧ s.frBusy = false ∧ t = s.quiet) := by
  obtain h | ⟨hf, h⟩ := gated_cases h
  · exact .inl h
  cases hb : s.frBusy <;> simp_all

theorem execSerClr_cases (h : execSerClr s = .next t) :
    (s.fault = true ∧ t = s.discard) ∨ (s.fault = false ∧ t = s.clearRow.quiet) := by
  obtain h | ⟨hf, h⟩ := gated_cases h
  · exact .inl h
  · exact .inr ⟨hf, (Host.Outcome.next.inj h).symm⟩

theorem execSerPix_cases {imm8 : Byte} (h : execSerPix imm8 s = .next t) :
    (s.fault = true ∧ t = s.discard) ∨
    (s.fault = false ∧ s.serIdx.toNat = Config.HRES ∧ t = s.raise .pixelOverflow (Instr.serPix imm8).opWord) ∨
    (s.fault = false ∧ ∃ hi : s.serIdx.toNat / 8 < Config.ROW_BYTES,
      t = { s.putDot s.serIdx.toNat hi (isDark imm8) with serIdx := s.serIdx + 1, rsp := none }) := by
  obtain h | ⟨hf, h⟩ := gated_cases h
  · exact .inl h
  split at h
  next hi => exact .inr (.inl ⟨hf, hi, (Host.Outcome.next.inj h).symm⟩)
  next =>
    split at h
    next hi => exact .inr (.inr ⟨hf, hi, (Host.Outcome.next.inj h).symm⟩)
    next => cases h

theorem execSerEmit_cases (h : execSerEmit s = .next t) :
    (s.fault = true ∧ t = s.discard) ∨
    (s.fault = false ∧ s.frBusy = true ∧ t = s.raise .frameBusy Instr.serEmit.opWord) ∨
    (s.fault = false ∧ s.frBusy = false ∧
      t = { s with
        egress := s.egress ++ encodeFrame .bitmapData s.row.toList, crc := checksum s.row.toList,
        frCmd := .bitmapData, frLen := BitVec.ofNat 16 Config.ROW_BYTES, frRem := 0,
        row := Vector.replicate Config.ROW_BYTES 0x00, serIdx := 0, rsp := none }) := by
  obtain h | ⟨hf, h⟩ := gated_cases h
  · exact .inl h
  cases hb : s.frBusy with
  | true => simp_all
  | false =>
    refine .inr (.inr ⟨hf, rfl, ?_⟩)
    simp only [hb, Bool.false_eq_true, if_false, Host.Outcome.next.injEq] at h
    rw [← h]
    simp [State.streamBytes_eq, State.emit, State.crcInit, State.clearRow, State.quiet, encodeFrame, checksum_eq, hb]

end Sys2Proof.Machine
end

