-- ==== Sys2Proof/Laws/PerInstr.lean ====
section
/-! SUPPORT. Per instruction: the encoder's word (the format diagrams of spec 30_encoding.md R72 to R75) falls into a row of
the operation map (the match and mask columns of R76), and that row's operand fields (R82) give the instruction back; a frame
opcode row is the backward reading of a byte of R80. -/

namespace Sys2Proof.Laws.RowMatch

/-- The encoded instruction falls into a row of its table that gives the instruction back. -/
def Statement (i : Instr) : Prop :=
  match encode i with
  | .op w => ∃ r ∈ opRows, r.covers w = true ∧ r.build w = i
  | .frame b => ∃ c, Config.OPC c = b ∧ c.frameInstr = i

/-- A format B or R word falls into the row of its major opcode. -/
theorem covers_byte (op imm8 : Byte) (m : OpWord) (build : OpWord → Instr) (h : op.toNat * 16777216 = m.toNat) :
    (OpRow.mk m 0xFFFFFF00#32 build).covers (formatB op imm8) = true := by
  have := imm8.isLt
  have hm : formatB op imm8 &&& 0xFFFFFF00#32 = m := (byte_row_iff _ _).mpr (by rw [formatB_toNat, ← h]; clear h; omega)
  exact beq_iff_eq.mpr hm

/-- A format F word falls into the row of its major opcode. -/
theorem covers_begin (op : Byte) (cmd : CommandId) (len : Half) (m : OpWord) (build : OpWord → Instr)
    (h : op.toNat * 16777216 = m.toNat) :
    (OpRow.mk m 0xFFF80000#32 build).covers (formatF op cmd len) = true := by
  have h1 := len.isLt
  have h2 := cmd.number.isLt
  have hm : formatF op cmd len &&& 0xFFF80000#32 = m := (begin_row_iff _ _).mpr (by rw [formatF_toNat, ← h]; clear h; omega)
  exact beq_iff_eq.mpr hm

theorem nop : Statement .nop :=
  ⟨_, List.getElem_mem (l := opRows) (n := 0) (by decide), by decide, rfl⟩

theorem srst : Statement .srst :=
  ⟨_, List.getElem_mem (l := opRows) (n := 1) (by decide), by decide, rfl⟩

theorem rdreg (reg : Byte) : Statement (.rdreg reg) :=
  ⟨_, List.getElem_mem (l := opRows) (n := 2) (by decide), covers_byte _ _ _ _ (by decide), by simp [opRows]⟩

theorem crcClr : Statement .crcClr :=
  ⟨_, List.getElem_mem (l := opRows) (n := 3) (by decide), by decide, rfl⟩

theorem crcUpd (imm8 : Byte) : Statement (.crcUpd imm8) :=
  ⟨_, List.getElem_mem (l := opRows) (n := 4) (by decide), covers_byte _ _ _ _ (by decide), by simp [opRows]⟩

theorem crcTab (imm8 : Byte) : Statement (.crcTab imm8) :=
  ⟨_, List.getElem_mem (l := opRows) (n := 5) (by decide), covers_byte _ _ _ _ (by decide), by simp [opRows]⟩

theorem frBegin (cmd : CommandId) (len : Half) : Statement (.frBegin cmd len) :=
  ⟨_, List.getElem_mem (l := opRows) (n := 6) (by decide), covers_begin _ _ _ _ _ (by decide), by simp [opRows]⟩

theorem frData (imm8 : Byte) : Statement (.frData imm8) :=
  ⟨_, List.getElem_mem (l := opRows) (n := 7) (by decide), covers_byte _ _ _ _ (by decide), by simp [opRows]⟩

theorem frAbort : Statement .frAbort :=
  ⟨_, List.getElem_mem (l := opRows) (n := 8) (by decide), by decide, rfl⟩

theorem serClr : Statement .serClr :=
  ⟨_, List.getElem_mem (l := opRows) (n := 9) (by decide), by decide, rfl⟩

theorem serPix (imm8 : Byte) : Statement (.serPix imm8) :=
  ⟨_, List.getElem_mem (l := opRows) (n := 10) (by decide), covers_byte _ _ _ _ (by decide), by simp [opRows]⟩

theorem serEmit : Statement .serEmit :=
  ⟨_, List.getElem_mem (l := opRows) (n := 11) (by decide), by decide, rfl⟩

theorem paper : Statement .paper := ⟨.paper, rfl, rfl⟩

theorem getDeviceState : Statement .getDeviceState := ⟨.getDeviceState, rfl, rfl⟩

theorem quality : Statement .quality := ⟨.quality, rfl, rfl⟩

theorem energy : Statement .energy := ⟨.energy, rfl, rfl⟩

theorem lattice : Statement .lattice := ⟨.lattice, rfl, rfl⟩

theorem printSpeed : Statement .printSpeed := ⟨.printSpeed, rfl, rfl⟩

theorem printMode : Statement .printMode := ⟨.printMode, rfl, rfl⟩

theorem bitmapData : Statement .bitmapData := ⟨.bitmapData, rfl, rfl⟩

end Sys2Proof.Laws.RowMatch
end

