-- ==== Sys2Proof/Tests/Slice0.lean ====
section
/-! SUPPORT. Tests of the model, each about one step or one function. The expected results stand in the spec: the encodings of
30_encoding.md R72 to R76 and R80 written out bit by bit, and the vectors of 95_test_vectors.md (V-..., S...), named in each
docstring. The last part holds a witness for the hypotheses of every obligation. -/

namespace Sys2Proof.Tests

open Sys2Proof Sys2Proof.Machine

/-! ### Helpers -/

/-- Whether the instruction answers a next state that `p` holds of. -/
def after (i : Instr) (s : State) (p : State → Bool) : Bool :=
  match exec i s with
  | .next t => p t
  | _ => false

/-- Whether one step, from reset with these inputs, answers a next state that `p` holds of. -/
def stepped (inputs : List Input) (s : State) (p : State → Bool) : Bool :=
  match step { s with inputs := inputs } with
  | .next t => p t
  | _ => false

/-- A Quality frame of one payload byte just opened (V-F12, P4). -/
def openQuality : State :=
  { State.reset with
    egress := [0x51, 0x78, 0xA4, 0x00, 0x01, 0x00], frBusy := true, frCmd := .quality, frLen := 1, frRem := 1 }

/-- A Paper frame of two payload bytes just opened (V-F14). -/
def openPaper : State :=
  { State.reset with
    egress := [0x51, 0x78, 0xA1, 0x00, 0x02, 0x00], frBusy := true, frCmd := .paper, frLen := 2, frRem := 2 }

/-- The block after `rdreg 9` from reset (V-K2). -/
def faulted : State := { State.reset with fault := true, faultCause := .badReg, faultOp := 0x02000009 }

/-- `openQuality` after `crc.upd 0x00` (P4). -/
def faultedInFrame : State := { openQuality with fault := true, faultCause := .frameBusy, faultOp := 0x11000000 }

/-- A cleared row with the next dot at `i`: `i` white pixels were written. -/
def rowAt (i : BitVec 9) : State := { State.reset with serIdx := i }

/-! ### Ill-formed terms (30_encoding.md R83, R86) -/

theorem test_wf_refuses_rdreg : AsmOp.wf (.rdreg 256) = false := by decide
theorem test_wf_refuses_crcUpd : AsmOp.wf (.crcUpd 256) = false := by decide
theorem test_wf_refuses_crcTab : AsmOp.wf (.crcTab 256) = false := by decide
theorem test_wf_refuses_frBegin_cmd : AsmOp.wf (.frBegin 8 0) = false := by decide
theorem test_wf_refuses_frBegin_len : AsmOp.wf (.frBegin 0 65536) = false := by decide
theorem test_wf_refuses_frData : AsmOp.wf (.frData 256) = false := by decide
theorem test_wf_refuses_serPix : AsmOp.wf (.serPix 256) = false := by decide
theorem test_wf_refuses_crcBytes : Pseudo.wf (.crcBytes [0, 256]) = false := by decide
theorem test_wf_refuses_frFrame_cmd : Pseudo.wf (.frFrame 8 []) = false := by decide
theorem test_wf_refuses_frFrame_byte : Pseudo.wf (.frFrame 0 [256]) = false := by decide
theorem test_wf_refuses_frFrame_length : Pseudo.wf (.frFrame 0 (List.replicate 65536 0)) = false := by
  simp only [Pseudo.wf, List.length_replicate, Config.MAX_LEN]; rfl
theorem test_wf_refuses_serRow_length : Pseudo.wf (.serRow (List.replicate 385 0)) = false := by
  simp only [Pseudo.wf, List.length_replicate, Config.HRES]; rfl
theorem test_wf_refuses_serRow_pixel : Pseudo.wf (.serRow [256]) = false := by decide
theorem test_wf_refuses_rdrow : Pseudo.wf (.rdrow 48) = false := by decide
theorem test_wf_accepts :
    AsmOp.wf (.rdreg 255) = true ∧ AsmOp.wf (.frBegin 7 65535) = true ∧ Pseudo.wf (.rdrow 47) = true := by decide

/-! ### Decoding: every row's word, written out from its encoding -/

theorem test_decode_nop : decode (.op 0b00000000_000000000000000000000000#32) = .ok .nop := by decide
theorem test_decode_srst : decode (.op 0b00000001_000000000000000000000000#32) = .ok .srst := by decide
theorem test_decode_rdreg : decode (.op 0b00000010_0000000000000000_00111111#32) = .ok (.rdreg 0x3F) := by decide
theorem test_decode_crcClr : decode (.op 0b00010000_000000000000000000000000#32) = .ok .crcClr := by decide
theorem test_decode_crcUpd : decode (.op 0b00010001_0000000000000000_10000001#32) = .ok (.crcUpd 0x81) := by decide
theorem test_decode_crcTab : decode (.op 0b00010010_0000000000000000_11111111#32) = .ok (.crcTab 0xFF) := by decide
theorem test_decode_frBegin :
    decode (.op 0b00100000_00000_110_0000001000000001#32) = .ok (.frBegin .printMode 0x0201) := by decide
theorem test_decode_frData : decode (.op 0b00100001_0000000000000000_00110000#32) = .ok (.frData 0x30) := by decide
theorem test_decode_frAbort : decode (.op 0b00100010_000000000000000000000000#32) = .ok .frAbort := by decide
theorem test_decode_serClr : decode (.op 0b00110000_000000000000000000000000#32) = .ok .serClr := by decide
theorem test_decode_serPix : decode (.op 0b00110001_0000000000000000_01111110#32) = .ok (.serPix 126) := by decide
theorem test_decode_serEmit : decode (.op 0b00110010_000000000000000000000000#32) = .ok .serEmit := by decide
theorem test_decode_paper : decode (.frame 0b10100001#8) = .ok .paper := by decide
theorem test_decode_getDeviceState : decode (.frame 0b10100011#8) = .ok .getDeviceState := by decide
theorem test_decode_quality : decode (.frame 0b10100100#8) = .ok .quality := by decide
theorem test_decode_energy : decode (.frame 0b10101111#8) = .ok .energy := by decide
theorem test_decode_lattice : decode (.frame 0b10100110#8) = .ok .lattice := by decide
theorem test_decode_printSpeed : decode (.frame 0b10111101#8) = .ok .printSpeed := by decide
theorem test_decode_printMode : decode (.frame 0b10111110#8) = .ok .printMode := by decide
theorem test_decode_bitmapData : decode (.frame 0b10100010#8) = .ok .bitmapData := by decide

/-- Illegal words: V-K4, V-K5, V-K6, V-K7, and one set reserved bit for the formats B and R (R73, R75). -/
theorem test_decode_refuses :
    decode (.op 0x03000000) = .error .unassignedOpcode ∧ decode (.op 0x03FFFFFF) = .error .unassignedOpcode ∧
    decode (.op 0x00000001) = .error .reservedBits ∧ decode (.op 0x20080000) = .error .reservedBits ∧
    decode (.op 0x11000100) = .error .reservedBits ∧ decode (.op 0x02800000) = .error .reservedBits ∧
    decode (.frame 0xA5) = .error .unknownFrameOpcode := by decide

/-- The host's numbering: a row of 8 bits is a frame opcode, one of 32 an op word (spec/opcode_table.json). -/
theorem test_decodeTableWord :
    decodeTableWord 8 0xA2 = some .bitmapData ∧ decodeTableWord 32 0x20040100 = some (.frBegin .lattice 0x100) ∧
    decodeTableWord 32 0xA2 = none := by decide

/-- A placed word is the next step's instruction (V-F1). -/
theorem test_withFetchWord :
    (match step (State.reset.withFetchWord 32 0x20000000) with
      | .next t => decide (t.egress = [0x51, 0x78, 0xA1, 0x00, 0x00, 0x00, 0x00, 0xFF])
      | _ => false) = true := by decide

/-! ### Checksums (V-C1 to V-C26) -/

theorem test_checksum_short :
    checksum [] = 0x00 ∧ checksum [0x00] = 0x00 ∧ checksum [0x01] = 0x07 ∧ checksum [0x30] = 0x90 ∧
    checksum [0x30, 0x00] = 0xF9 ∧ checksum [0x48, 0x00] = 0xF3 ∧ checksum [0x00, 0x01] = 0x07 ∧
    checksum [0x01, 0x00] = 0x15 ∧ checksum [0xE0, 0x2E] = 0x89 ∧ checksum [0x51, 0x78, 0xFF] = 0xB6 := by decide

theorem test_checksum_check_value :
    checksum [0x31, 0x32, 0x33, 0x34, 0x35, 0x36, 0x37, 0x38, 0x39] = 0xF4 := by decide

theorem test_checksum_rows :
    checksum (List.replicate 48 0x00) = 0x00 ∧ checksum (List.replicate 48 0xFF) = 0xE8 ∧
    checksum (0x80 :: List.replicate 47 0x00) = 0x1C ∧ checksum (List.replicate 47 0x00 ++ [0x01]) = 0x07 := by
  decide +kernel

/-! ### Frames (S1 to S4) -/

theorem test_golden_frames :
    encodeFrame .paper [0x30, 0x00] = [0x51, 0x78, 0xA1, 0x00, 0x02, 0x00, 0x30, 0x00, 0xF9, 0xFF] ∧
    encodeFrame .paper [0x48, 0x00] = [0x51, 0x78, 0xA1, 0x00, 0x02, 0x00, 0x48, 0x00, 0xF3, 0xFF] ∧
    encodeFrame .printMode [0x00] = [0x51, 0x78, 0xBE, 0x00, 0x01, 0x00, 0x00, 0x00, 0xFF] ∧
    encodeFrame .printMode [0x01] = [0x51, 0x78, 0xBE, 0x00, 0x01, 0x00, 0x01, 0x07, 0xFF] := by decide

/-- The first two bytes of P3's row. -/
theorem test_pack_program_P3 :
    ((pack [0x00, 0x10, 0x7E, 0x7F, 0x80, 0xFF, 0x00, 0xFF, 0x20, 0x20, 0x20, 0x20, 0xC8, 0xC8, 0xC8, 0xC8]).toList.take 3 :
      List Byte) = [0xE2, 0xF0, 0x00] := by decide

/-! ### One step of each instruction -/

/-- V-K8, and NOP in a faulted block (60_exceptions.md R205). -/
theorem test_nop : after .nop State.reset (· == State.reset) = true ∧ after .nop faulted (· == faulted) = true := by decide

/-- V-K7: SRST returns a faulted block to the reset state. -/
theorem test_srst_clears_fault : after .srst faulted (· == State.reset) = true := by decide

/-- SRST keeps the bytes already emitted (70_reset_and_hazards.md R230; P4's truncated frame). -/
theorem test_srst_keeps_egress :
    after .srst faultedInFrame (fun t => t.egress == [0x51, 0x78, 0xA4, 0x00, 0x01, 0x00] && !t.frBusy && t.frLen == 0) =
      true := by decide

/-- P4: `rdreg status` answers 030B. -/
theorem test_rdreg_status : after (.rdreg 0x01) faultedInFrame (fun t => t.rsp == some 0x030B) = true := by decide

/-- V-K3: index 0x40 is the first past ROW[47]. -/
theorem test_rdreg_reserved :
    after (.rdreg 0x40) State.reset
      (· == { State.reset with fault := true, faultCause := .badReg, faultOp := 0x02000040 }) = true := by decide

/-- V-C32: `crc.clr` after `crc.upd 0x1E`. -/
theorem test_crcClr : after .crcClr { State.reset with crc := 0x5A } (· == State.reset) = true := by decide

/-- V-C31: CRC.CLR in a frame. -/
theorem test_crcClr_in_frame :
    after .crcClr openQuality (fun t => t.fault && t.faultCause == .frameBusy && t.faultOp == 0x10000000) = true := by decide

/-- V-C33: the second `crc.upd 0x12`. -/
theorem test_crcUpd : after (.crcUpd 0x12) { State.reset with crc := 0x7E } (fun t => t.crc == 0x03) = true := by decide

/-- V-C30: CRC.UPD in a frame. -/
theorem test_crcUpd_in_frame :
    after (.crcUpd 0x30) openQuality (fun t => t.faultCause == .frameBusy && t.faultOp == 0x11000030 && t.crc == 0x00) =
      true := by decide

/-- V-C28: `crc.tab 0xFF` answers 00F3 and writes nothing. -/
theorem test_crcTab : after (.crcTab 0xFF) openQuality (· == { openQuality with rsp := some 0x00F3 }) = true := by decide

/-- V-F6: the length little-endian. -/
theorem test_frBegin :
    after (.frBegin .lattice 0x100) State.reset
      (· == { State.reset with
        egress := [0x51, 0x78, 0xA6, 0x00, 0x00, 0x01], frBusy := true, frCmd := .lattice, frLen := 256, frRem := 256 }) =
      true := by decide

/-- V-F10: FR.BEGIN in a frame, which stays open. -/
theorem test_frBegin_in_frame :
    after (.frBegin .getDeviceState 1) openPaper
      (· == { openPaper with fault := true, faultCause := .frameBusy, faultOp := 0x20010001 }) = true := by decide

/-- V-F3: the last payload byte brings checksum and terminator. -/
theorem test_frData_last :
    after (.frData 0x34) openQuality
      (fun t => t.egress == [0x51, 0x78, 0xA4, 0x00, 0x01, 0x00, 0x34, 0x8C, 0xFF] && t.crc == 0x8C && !t.frBusy) =
      true := by decide

/-- S1's first payload byte. -/
theorem test_frData_middle :
    after (.frData 0x30) openPaper
      (· == { openPaper with egress := openPaper.egress ++ [0x30], crc := 0x90, frRem := 1 }) = true := by decide

/-- V-F12: FR.ABORT emits nothing and keeps `fr_cmd`. -/
theorem test_frAbort :
    after .frAbort openQuality (· == { openQuality with frBusy := false, frRem := 0 }) = true := by decide

/-- V-F13: FR.ABORT with no frame open. -/
theorem test_frAbort_idle : after .frAbort State.reset (· == State.reset) = true := by decide

/-- V-S11: SER.CLR discards the row, with a frame open too (R151). -/
theorem test_serClr :
    after .serClr { openQuality with row := State.reset.row.set 0 0xFF, serIdx := 10 } (· == openQuality) = true := by decide

/-- V-S5's edge: 126 is dark and 127 is light. -/
theorem test_serPix_threshold :
    after (.serPix 126) (rowAt 8) (fun t => t.row == State.reset.row.set 1 0x80 && t.serIdx == 9) = true ∧
    after (.serPix 127) (rowAt 8) (fun t => t.row == State.reset.row && t.serIdx == 9) = true := by decide

/-- V-S8: a pixel on a full row. -/
theorem test_serPix_full :
    after (.serPix 0) (rowAt 384)
      (· == { rowAt 384 with fault := true, faultCause := .pixelOverflow, faultOp := 0x31000000 }) = true := by decide

/-- V-S3: SER.EMIT of the row with one dark dot at column 0. -/
theorem test_serEmit :
    after .serEmit { State.reset with row := State.reset.row.set 0 0x80, serIdx := 384 }
      (· == { State.reset with
        egress := [0x51, 0x78, 0xA2, 0x00, 0x30, 0x00, 0x80] ++ List.replicate 47 0x00 ++ [0x1C, 0xFF], crc := 0x1C,
        frCmd := .bitmapData, frLen := 48 }) = true := by decide +kernel

/-- V-S9: SER.EMIT in a frame. -/
theorem test_serEmit_in_frame :
    after .serEmit openQuality (· == { openQuality with fault := true, faultCause := .frameBusy, faultOp := 0x32000000 }) =
      true := by decide

/-- The reader's answer for each frame opcode (R80), faulted or not: the block itself does not change. -/
theorem test_frame_opcodes :
    after .paper faulted (· == { faulted with readerCmd := some .paper }) = true ∧
    after .getDeviceState openPaper (· == { openPaper with readerCmd := some .getDeviceState }) = true ∧
    after .quality openPaper (fun t => t.readerCmd == some .quality) = true ∧
    after .energy openPaper (fun t => t.readerCmd == some .energy) = true ∧
    after .lattice openPaper (fun t => t.readerCmd == some .lattice) = true ∧
    after .printSpeed openPaper (fun t => t.readerCmd == some .printSpeed) = true ∧
    after .printMode openPaper (fun t => t.readerCmd == some .printMode) = true ∧
    after .bitmapData openPaper (fun t => t.readerCmd == some .bitmapData) = true := by decide

/-! ### Steps -/

/-- V-K4: an illegal word in a step. -/
theorem test_step_illegal :
    stepped [.code (.op 0x03000000)] State.reset
      (· == { State.reset with fault := true, faultCause := .illegalOp, faultOp := 0x03000000 }) = true := by decide

/-- V-K7: FR.BEGIN and an illegal word while `fault` = 1 are discarded. -/
theorem test_step_discards :
    stepped [.code (.op 0x20000000)] faulted (· == faulted) = true ∧
    stepped [.code (.op 0x03FFFFFF)] faulted (· == faulted) = true := by decide

/-- `RESET_I` in an open frame (R231): the frame is lost, its bytes stay. -/
theorem test_step_resetI :
    stepped [.resetI] openPaper (· == { State.reset with egress := openPaper.egress }) = true := by decide

/-! ### The assembler (30_encoding.md section 5; the listings of P2 and P3) -/

/-- The last line, a comment alone, is the model's choice (log entry 18). -/
theorem test_assemble_lines :
    assembleLine "FR.begin printmode, 1    ; 20060001".toList = some [.frBegin .printMode 1] ∧
    assembleLine "rdreg fault_op_lo".toList = some [.rdreg 5] ∧
    assembleLine "ser.pix 0x7E".toList = some [.serPix 126] ∧
    assembleLine "crc.upd 0b101".toList = some [.crcUpd 5] ∧
    assembleLine "; only a comment".toList = some [] := by decide

theorem test_assemble_errors :
    assembleLine "ser.pix 256".toList = none ∧ assembleLine "fr.begin 8, 0".toList = none ∧
    assembleLine "rdrow 48".toList = none ∧ assembleLine "nop 1".toList = none := by decide

/-- R86: a frame in one line. -/
theorem test_assemble_pseudo :
    assembleLine "fr.frame paper, 0x30, 0".toList = some [.frBegin .paper 2, .frData 0x30, .frData 0x00] ∧
    assembleLine "crc.bytes 0x30, 0".toList = some [.crcClr, .crcUpd 0x30, .crcUpd 0x00] ∧
    assembleLine "ser.row 0, 255".toList = some [.serClr, .serPix 0, .serPix 255, .serEmit] ∧
    assembleLine "rdrow 47".toList = some [.rdreg 0x3F] := by decide

/-! ### Witnesses: the hypotheses of every obligation can be met

Named after the obligation; a clause's number stands where several clauses have hypotheses of their own. -/

theorem witness_EncodeOfDecode : decode (.op 0x2005FF01) = .ok (.frBegin .printSpeed 0xFF01) := by decide

theorem witness_DecoderSelectsTheRow_match :
    ∃ r ∈ opRows, (0x31000080 : OpWord) &&& r.mask = r.bits := by decide

theorem witness_DecoderSelectsTheRow_none :
    (∀ r ∈ opRows, (0x03000000 : OpWord) &&& r.mask ≠ r.bits) ∧
    ({ State.reset with inputs := [.code (.op 0x03000000)] } : State).inputs = .code (.op 0x03000000) :: [] := by decide

theorem witness_IllegalWords_step :
    decodeOp 0x00000001 = .error .reservedBits ∧ decodeOp 0xFFFFFFFF = .error .unassignedOpcode ∧
    State.reset.fault = false ∧
    ({ State.reset with inputs := [.code (.op 0x00000001)] } : State).inputs = .code (.op 0x00000001) :: [] := by decide

theorem witness_IllegalWords_reserved_index :
    regOfIndex 0x09 = none ∧ regOfIndex 0x0F = none ∧ regOfIndex 0x40 = none ∧ regOfIndex 0xFF = none ∧
    State.reset.fault = false := by decide

theorem witness_OperandFields :
    decodeOp 0x020000FF = .ok (.rdreg 0xFF) ∧ decodeOp 0x110000FF = .ok (.crcUpd 0xFF) ∧
    decodeOp 0x12000000 = .ok (.crcTab 0x00) ∧ decodeOp 0x210000FF = .ok (.frData 0xFF) ∧
    decodeOp 0x31000000 = .ok (.serPix 0x00) ∧ decodeOp 0x2007FFFF = .ok (.frBegin .bitmapData 0xFFFF) ∧
    decodeOp 0x20000000 = .ok (.frBegin .paper 0x0000) := by decide

theorem witness_LinkBytesCarryTheWord : ([0x00, 0x00, 0x20] : List Byte).length ≠ 4 ∧ ([] : List Byte).length ≠ 4 := by
  decide

theorem witness_CommandNumbersAndOpcodes : Config.OPC .energy = Config.OPC .energy := by decide

theorem witness_StepRunsTheDecodedInstruction :
    ({ State.reset with inputs := [.code (.op 0x00000000), .resetI] } : State).inputs = .code (.op 0x00000000) :: [.resetI] ∧
    decode (.op 0x00000000) = .ok .nop := by decide

theorem witness_StepWithoutInstruction :
    State.reset.inputs = [] ∧
    ({ State.reset with inputs := [.code (.frame 0x00)] } : State).inputs = .code (.frame 0x00) :: [] ∧
    (∀ c ∈ CommandId.all, Config.OPC c ≠ 0x00) := by decide

theorem witness_StepWithoutInstruction_no_command : ∀ c, Config.OPC c ≠ 0x00 := by
  intro c; cases c <;> decide

theorem witness_ResetEffect : ({ faulted with inputs := [.resetI] } : State).inputs = .resetI :: [] := by decide

theorem witness_NopDoesNothing : majorOf 0x00000001 = 0x00 ∧ (0x00000001 : OpWord) ≠ 0x00000000 := by decide

theorem witness_SrstResets :
    majorOf 0x01800000 = 0x01 ∧ (0x01800000 : OpWord) ≠ 0x01000000 ∧ faulted.fault = true ∧
    exec .srst faulted = .next State.reset ∧ State.reset.fault = false :=
  ⟨by decide, by decide, rfl, rfl, rfl⟩

theorem witness_RdregReadsTheRegister :
    majorOf 0x02000100 = 0x02 ∧ (0x02000100 : OpWord).extractLsb' 8 16 ≠ 0 ∧ 0 < Config.ROW_BYTES ∧ 47 < Config.ROW_BYTES ∧
    (0x09 ≤ (0x09 : Byte).toNat ∧ (0x09 : Byte).toNat ≤ 0x0F) ∧
    (0x09 ≤ (0x0F : Byte).toNat ∧ (0x0F : Byte).toNat ≤ 0x0F) ∧ 0x40 ≤ (0x40 : Byte).toNat ∧ 0x40 ≤ (0xFF : Byte).toNat := by
  decide

/-- An idle block without a fault, an open one without a fault, and a faulted one: the states the result statements of the
twelve operations speak of. -/
theorem witness_states :
    State.reset.fault = false ∧ State.reset.frBusy = false ∧ openPaper.fault = false ∧ openPaper.frBusy = true ∧
    faulted.fault = true := by decide

theorem witness_illegal_neighbours :
    (majorOf 0x10000001 = 0x10 ∧ (0x10000001 : OpWord) ≠ 0x10000000) ∧
    (majorOf 0x11800000 = 0x11 ∧ (0x11800000 : OpWord).extractLsb' 8 16 ≠ 0) ∧
    (majorOf 0x12000100 = 0x12 ∧ (0x12000100 : OpWord).extractLsb' 8 16 ≠ 0) ∧
    (majorOf 0x20080000 = 0x20 ∧ (0x20080000 : OpWord).extractLsb' 19 5 ≠ 0) ∧
    (majorOf 0x20800000 = 0x20 ∧ (0x20800000 : OpWord).extractLsb' 19 5 ≠ 0) ∧
    (majorOf 0x21000100 = 0x21 ∧ (0x21000100 : OpWord).extractLsb' 8 16 ≠ 0) ∧
    (majorOf 0x22000001 = 0x22 ∧ (0x22000001 : OpWord) ≠ 0x22000000) ∧
    (majorOf 0x30800000 = 0x30 ∧ (0x30800000 : OpWord) ≠ 0x30000000) ∧
    (majorOf 0x31000100 = 0x31 ∧ (0x31000100 : OpWord).extractLsb' 8 16 ≠ 0) ∧
    (majorOf 0x32000001 = 0x32 ∧ (0x32000001 : OpWord) ≠ 0x32000000) := by decide

theorem witness_CrcClrResult :
    State.reset.fault = false ∧ State.reset.frBusy = false ∧ openPaper.fault = false ∧ openPaper.frBusy = true :=
  ⟨rfl, rfl, rfl, rfl⟩

theorem witness_CrcUpdResult :
    State.reset.fault = false ∧ State.reset.frBusy = false ∧ openPaper.fault = false ∧ openPaper.frBusy = true :=
  ⟨rfl, rfl, rfl, rfl⟩

theorem witness_CrcSequenceLeavesTheChecksum : State.reset.fault = false ∧ State.reset.frBusy = false := ⟨rfl, rfl⟩

theorem witness_CrcTabResult : openPaper.fault = false ∧ faulted.fault = true := ⟨rfl, rfl⟩

theorem witness_FrBeginResult :
    State.reset.fault = false ∧ State.reset.frBusy = false ∧ (0xFFFF : Half) ≠ 0 ∧ (1 : Half) ≠ 0 ∧
    openPaper.fault = false ∧ openPaper.frBusy = true := by decide

theorem witness_FrDataResult :
    (openPaper.fault = false ∧ openPaper.frBusy = true ∧ 1 < openPaper.frRem.toNat) ∧
    (openQuality.fault = false ∧ openQuality.frBusy = true ∧ openQuality.frRem = 1) ∧
    (State.reset.fault = false ∧ State.reset.frBusy = false) := by decide

theorem witness_FramerInv_open : FramerInv openPaper ∧ openPaper.frBusy = true :=
  ⟨⟨by decide, by decide, fun _ => ⟨[], [], by decide, by decide, by decide⟩⟩, rfl⟩

theorem witness_FramerInv_midway :
    FramerInv { openPaper with egress := openPaper.egress ++ [0x30], crc := 0x90, frRem := 1 } :=
  ⟨by decide, by decide, fun _ => ⟨[], [0x30], by decide, by decide, by decide⟩⟩

theorem witness_FrDataWithNothingExpected :
    ({ openPaper with frRem := 0 } : State).fault = false ∧ ({ openPaper with frRem := 0 } : State).frBusy = true ∧
    ({ openPaper with frRem := 0 } : State).frRem = 0 := ⟨rfl, rfl, rfl⟩

theorem witness_FrAbortResult :
    openPaper.fault = false ∧ openPaper.frBusy = true ∧ State.reset.fault = false ∧ State.reset.frBusy = false :=
  ⟨rfl, rfl, rfl, rfl⟩

theorem witness_SerClrResult : openPaper.fault = false ∧ State.reset.fault = false := ⟨rfl, rfl⟩

theorem witness_SerializerInv_rowAt (i : BitVec 9) (h : i.toNat ≤ 384) : SerializerInv (rowAt i) :=
  ⟨h, fun j _ _ => dotOf_clear j⟩

theorem witness_SerPixResult_light :
    (rowAt 383).fault = false ∧ SerializerInv (rowAt 383) ∧ (rowAt 383).serIdx.toNat < 384 ∧ 127 ≤ (127 : Byte).toNat :=
  ⟨rfl, witness_SerializerInv_rowAt _ (by decide), by decide, by decide⟩

theorem witness_SerEmitResult_empty_row : SerializerInv (rowAt 0) ∧ (rowAt 0).serIdx = 0 :=
  ⟨witness_SerializerInv_rowAt _ (by decide), rfl⟩

theorem witness_SerPixResult :
    ((rowAt 0).fault = false ∧ (rowAt 0).serIdx.toNat < 384) ∧ ((rowAt 383).fault = false ∧ (rowAt 383).serIdx.toNat < 384) ∧
    ((rowAt 384).fault = false ∧ (rowAt 384).serIdx.toNat = 384) := by decide

theorem witness_SerPixBeyondTheRowStops :
    ((rowAt 385).fault = false ∧ 384 < (rowAt 385).serIdx.toNat) ∧
    ((rowAt 511).fault = false ∧ 384 < (rowAt 511).serIdx.toNat) := by decide

theorem witness_SerEmitResult :
    State.reset.fault = false ∧ State.reset.frBusy = false ∧ openPaper.fault = false ∧ openPaper.frBusy = true :=
  ⟨rfl, rfl, rfl, rfl⟩

theorem witness_FrameOpcodeRowsNameTheCommand :
    ({ State.reset with inputs := [.code (.frame 0xA2)] } : State).inputs = .code (.frame (Config.OPC .bitmapData)) :: [] := by
  decide

theorem witness_FaultEntryRecordsOnlyTheFault :
    State.reset.fault = false ∧ exec (.rdreg 0x09) State.reset = .next faulted ∧ faulted.fault = true := ⟨rfl, rfl, rfl⟩

/-- Each cause of R200 is raised by some operation in some state, and some operation raises none. -/
theorem witness_FaultCauses :
    stepped [.code (.op 0x03000000)] State.reset (fun t => t.fault && t.faultCause == .illegalOp) = true ∧
    after (.rdreg 0x0F) State.reset (fun t => t.fault && t.faultCause == .badReg) = true ∧
    after .serEmit openPaper (fun t => t.fault && t.faultCause == .frameBusy) = true ∧
    after (.frData 0x12) State.reset (fun t => t.fault && t.faultCause == .noFrame) = true ∧
    after (.serPix 0) (rowAt 384) (fun t => t.fault && t.faultCause == .pixelOverflow) = true ∧
    after (.serPix 0) (rowAt 383) (fun t => !t.fault) = true := by decide

theorem witness_GatingWhileFaulted :
    ({ faulted with inputs := [.code (.op 0x20000000)] } : State).inputs = .code (.op 0x20000000) :: [] ∧
    ({ faulted with inputs := [.code (.op 0x20000000)] } : State).fault = true ∧
    ({ State.reset with inputs := [.code (.op 0x20000000)] } : State).fault = false := ⟨rfl, rfl, rfl⟩

theorem witness_FaultLeftOnlyByReset :
    (({ faulted with inputs := [.resetI] } : State).fault = true ∧
      step { faulted with inputs := [.resetI] } = .next State.reset) ∧
    (({ faulted with inputs := [.code (.op 0x22000000)] } : State).fault = true ∧
      step { faulted with inputs := [.code (.op 0x22000000)] } = .next faulted) ∧
    (State.reset.fault = false ∧ step { State.reset with inputs := [.code (.op 0x02000009)] } = .next faulted ∧
      faulted.fault = true) :=
  ⟨⟨rfl, rfl⟩, ⟨rfl, rfl⟩, rfl, rfl, rfl⟩

theorem witness_EgressOnlyGrows :
    step { State.reset with inputs := [.code (.op 0x20000002)] } = .next openPaper := rfl

/-- Both cases of R246's count: a fault on either side, and none, with FR.DATA at and before its last byte. -/
theorem witness_EgressCounts :
    exec (.frData 0) faulted = .next faulted ∧ exec (.rdreg 0x09) State.reset = .next faulted ∧
    (∃ t, exec (.frData 0) openQuality = .next t ∧ openQuality.fault = false ∧ t.fault = false ∧ openQuality.frRem = 1) ∧
    (∃ t, exec (.frData 0) openPaper = .next t ∧ openPaper.fault = false ∧ t.fault = false ∧ openPaper.frRem ≠ 1) ∧
    exec (.frBegin .paper 2) State.reset = .next openPaper :=
  ⟨rfl, rfl, ⟨_, rfl, rfl, rfl, rfl⟩, ⟨_, rfl, rfl, rfl, by decide⟩, rfl⟩

theorem witness_FramesNeverInterleave :
    (∃ t, openPaper.frBusy = true ∧ exec (.frData 0x30) openPaper = .next t ∧ t.egress ≠ openPaper.egress) ∧
    (openPaper.frBusy = true ∧ openPaper.fault = false) ∧
    (leavesFrameAlone (.serPix 0) = true ∧
      exec (.serPix 255) openPaper = .next { openPaper with serIdx := 1 }) :=
  ⟨⟨_, rfl, rfl, by decide⟩, ⟨rfl, rfl⟩, rfl, rfl⟩

theorem witness_WritersOfEachElement :
    exec (.frBegin .paper 2) State.reset = .next openPaper ∧ openPaper.frBusy ≠ State.reset.frBusy ∧
    openPaper.frLen ≠ State.reset.frLen ∧ openPaper.frRem ≠ State.reset.frRem ∧ openPaper.egress ≠ State.reset.egress :=
  ⟨rfl, by decide⟩

/-- One change of every other element: `crc`, `ser_idx`, the row, the response, the fault record and the reader's answer. -/
theorem witness_WritersOfEachElement_others :
    after (.crcUpd 0x30) State.reset (fun t => t.crc != State.reset.crc) = true ∧
    after (.serPix 0) State.reset (fun t => t.serIdx != State.reset.serIdx && t.row != State.reset.row) = true ∧
    after (.crcTab 0) State.reset (fun t => t.rsp != none) = true ∧
    after (.rdreg 0) State.reset (fun t => t.rsp != none) = true ∧
    after (.rdreg 9) State.reset (fun t => t.fault != State.reset.fault && t.faultOp != State.reset.faultOp) = true ∧
    after .energy State.reset (fun t => t.readerCmd != State.reset.readerCmd) = true := by decide

theorem witness_ReadsHaveNoSideEffects :
    exec (.rdreg Reg.frRem.index) openPaper = .next { openPaper with rsp := some 2 } ∧
    exec (.crcTab 0x01) openPaper = .next { openPaper with rsp := some 0x0007 } := ⟨rfl, rfl⟩

/-- Two blocks that agree on the fault flag, its cause, `fr_busy` and `fr_rem`, and differ elsewhere. -/
theorem witness_FramerFaultsIgnoreBytes :
    openPaper.fault = ({ openPaper with crc := 0x55 } : State).fault ∧
    openPaper.faultCause = ({ openPaper with crc := 0x55 } : State).faultCause ∧
    openPaper.frBusy = ({ openPaper with crc := 0x55 } : State).frBusy ∧
    openPaper.frRem = ({ openPaper with crc := 0x55 } : State).frRem ∧
    (∃ t, exec (.frData 0x00) openPaper = .next t) ∧ (∃ t, exec (.frData 0xFF) { openPaper with crc := 0x55 } = .next t) ∧
    (∃ t, exec (.frBegin .paper 2) State.reset = .next t) ∧
    (∃ t, exec (.frBegin .energy 2) { State.reset with crc := 0x55 } = .next t) ∧
    State.reset.fault = false ∧ State.reset.frBusy = false ∧ openPaper.fault = false ∧ openPaper.frBusy = true :=
  ⟨rfl, rfl, rfl, rfl, ⟨_, rfl⟩, ⟨_, rfl⟩, ⟨_, rfl⟩, ⟨_, rfl⟩, rfl, rfl, rfl, rfl⟩

theorem witness_FramerInvKept :
    FramerInv openPaper ∧ exec (.crcTab 0x01) openPaper = .next { openPaper with rsp := some 0x0007 } ∧
    FramerInv { openPaper with inputs := [] } ∧ step openPaper = .next openPaper :=
  ⟨witness_FramerInv_open.1, rfl, witness_FramerInv_open.1, rfl⟩

theorem witness_SerializerInvKept :
    SerializerInv (rowAt 383) ∧ exec (.serPix 255) (rowAt 383) = .next (rowAt 384) ∧
    SerializerInv (rowAt 384) ∧ step (rowAt 384) = .next (rowAt 384) :=
  ⟨witness_SerializerInv_rowAt _ (by decide), rfl, witness_SerializerInv_rowAt _ (by decide), rfl⟩

theorem witness_FaultRecordKept :
    FaultInv { State.reset with inputs := [.code (.op 0x02000009)] } ∧
    step { State.reset with inputs := [.code (.op 0x02000009)] } = .next faulted ∧ FaultInv faulted :=
  ⟨⟨by decide, by decide⟩, rfl, by decide, by decide⟩

theorem witness_EveryStepCompletes : SerializerInv (rowAt 0) ∧ SerializerInv (rowAt 384) :=
  ⟨witness_SerializerInv_rowAt _ (by decide), witness_SerializerInv_rowAt _ (by decide)⟩

theorem witness_FrameEquivalence :
    State.reset.fault = false ∧ State.reset.frBusy = false ∧ ([] : List Byte).length ≤ 65535 ∧
    (List.replicate 65535 (0xFF : Byte)).length ≤ 65535 :=
  ⟨rfl, rfl, by decide, List.length_replicate.le⟩

/-- S1's frame with reads, a table look-up and a pixel between its bytes. -/
theorem witness_FrameEquivalenceInterleaved :
    let parts : List (List Instr × Byte) := [([.nop, .rdreg 0x03], 0x30), ([.crcTab 0x01, .serPix 0x00], 0x00)]
    State.reset.fault = false ∧ State.reset.frBusy = false ∧ parts.length ≤ 65535 ∧
    (∀ part ∈ parts, ∀ i ∈ part.1, leavesFrameAlone i = true) ∧
    ∃ t, SafeRun (.frBegin .paper (BitVec.ofNat 16 parts.length) :: weave .frData parts) State.reset t :=
  ⟨rfl, rfl, by decide, by decide, _, rfl, rfl⟩

theorem witness_RowEquivalence :
    State.reset.fault = false ∧ State.reset.frBusy = false ∧ ([] : List Byte).length ≤ 384 ∧
    (List.replicate 384 (0x00 : Byte)).length ≤ 384 :=
  ⟨rfl, rfl, by decide, List.length_replicate.le⟩

/-- Two pixels with a checksum, an abort and reads around them. -/
theorem witness_RowEquivalenceInterleaved :
    let parts : List (List Instr × Byte) := [([.crcUpd 0x01, .frAbort], 0x00), ([.nop], 0xFF)]
    State.reset.fault = false ∧ State.reset.frBusy = false ∧ parts.length ≤ 384 ∧
    (∀ part ∈ parts, ∀ i ∈ part.1, leavesRowAlone i = true) ∧ (∀ i ∈ [Instr.rdreg 0x10], leavesRowAlone i = true) ∧
    ∃ t, SafeRun (.serClr :: (weave .serPix parts ++ ([.rdreg 0x10] ++ [.serEmit]))) State.reset t :=
  ⟨rfl, rfl, by decide, by decide, by decide, _, rfl, rfl⟩

theorem witness_PackBits :
    ([] : List Byte).length ≤ 384 ∧ (List.replicate 384 (0x7E : Byte)).length ≤ 384 ∧ 47 < Config.ROW_BYTES ∧
    383 < (List.replicate 384 (0x7E : Byte)).length ∧ ([] : List Byte).length ≤ 383 := by
  refine ⟨by decide, List.length_replicate.le, by decide, ?_, by decide⟩
  rw [List.length_replicate]; decide

theorem witness_PackProperties_white :
    (List.replicate 384 (127 : Byte)).length = 384 ∧ ∀ p ∈ List.replicate 384 (127 : Byte), 127 ≤ p.toNat :=
  ⟨List.length_replicate, fun p hp => by rw [List.eq_of_mem_replicate hp]; decide⟩

theorem witness_PackProperties_black :
    (List.replicate 384 (126 : Byte)).length = 384 ∧ ∀ p ∈ List.replicate 384 (126 : Byte), p.toNat < 127 :=
  ⟨List.length_replicate, fun p hp => by rw [List.eq_of_mem_replicate hp]; decide⟩

theorem witness_PackProperties_first :
    ((0x00 : Byte) :: List.replicate 383 0xFF).length = 384 ∧
    ∀ (i : Nat) (h : i < ((0x00 : Byte) :: List.replicate 383 0xFF).length),
      (((0x00 : Byte) :: List.replicate 383 0xFF)[i]).toNat < 127 ↔ i = 0 := by
  refine ⟨by rw [List.length_cons, List.length_replicate], fun i h => ?_⟩
  cases i with
  | zero => exact iff_of_true (show (0x00 : Byte).toNat < 127 by decide) rfl
  | succ i => rw [List.getElem_cons_succ, List.getElem_replicate]; exact iff_of_false (by decide) (Nat.succ_ne_zero i)

theorem witness_PackProperties_last :
    (List.replicate 383 (0xFF : Byte) ++ [0x00]).length = 384 ∧
    ∀ (i : Nat) (h : i < (List.replicate 383 (0xFF : Byte) ++ [0x00]).length),
      ((List.replicate 383 (0xFF : Byte) ++ [0x00])[i]).toNat < 127 ↔ i = 383 := by
  refine ⟨by rw [List.length_append, List.length_replicate]; rfl, fun i h => ?_⟩
  rw [List.length_append, List.length_replicate] at h
  by_cases e : i < 383
  · rw [List.getElem_append_left (by rw [List.length_replicate]; exact e), List.getElem_replicate]
    exact iff_of_false (by decide) (Nat.ne_of_lt e)
  · have e : i = 383 := Nat.le_antisymm (Nat.le_of_lt_succ h) (Nat.le_of_not_lt e)
    subst e
    rw [List.getElem_append_right (by rw [List.length_replicate])]
    exact iff_of_true (by rw [List.getElem_singleton]; decide) rfl

theorem witness_ReaderFindsTheFrame : (List.replicate 65535 (0x00 : Byte)).length ≤ 65535 := List.length_replicate.le

theorem witness_CrcLaws : Config.T 0x00 = 0x00 := by decide

theorem witness_PseudoExpansions :
    (List.replicate 65535 (0x00 : Byte)).length ≤ 65535 ∧ (List.replicate 384 (0x00 : Byte)).length ≤ 384 ∧ 47 < 48 ∧
    65535 < (List.replicate 65536 0).length ∧ 384 < (List.replicate 385 0).length ∧ 48 ≤ 48 := by
  rw [List.length_replicate, List.length_replicate, List.length_replicate, List.length_replicate]; decide

theorem witness_AssemblerRanges : 7 < 8 := by decide

end Sys2Proof.Tests
end

section
/-! SUPPORT and proof for FR.DATA on a payload byte that does not close the frame (spec 41_framer.md R124), and for the state
with a frame open and nothing expected, which 10_state.md R28 rules out (log entry 12). -/

namespace Sys2Proof.Machine

variable {s : State}

/-- FR.DATA where the decremented `fr_rem` is not zero: the frame stays open. At `fr_rem` = 0 the decrement is the wrapping
one of R17, so that state falls under this case too. -/
theorem execFrData_of_frRem_sub_one_ne_zero (imm8 : Byte) (hfault : s.fault = false) (hbusy : s.frBusy = true)
    (hrem : s.frRem - 1 ≠ 0) :
    execFrData imm8 s = .next
      { s with egress := s.egress ++ [imm8], crc := crcStep s.crc imm8, frRem := s.frRem - 1, rsp := none } := by
  unfold execFrData
  rw [State.gated_of_clear s _ hfault, if_pos hbusy]
  exact if_neg hrem

/-- An open frame still expects a byte (R28's second point). -/
theorem FramerInv.frRem_ne_zero (h : FramerInv s) (hbusy : s.frBusy = true) : s.frRem ≠ 0 := by
  obtain ⟨-, hrange, -⟩ := h
  intro hzero
  have hpos : 1 ≤ s.frRem.toNat := (hrange hbusy).1
  simp [hzero] at hpos

/-- Settles O57: the wrapped count 0xFFFF is not zero, so FR.DATA takes the case that keeps the frame open; R28 asks for a
count of at least 1. -/
theorem frDataWithNothingExpected : Obligations.FrDataWithNothingExpected := by
  intro imm8 s hfault hbusy hzero
  have hwrap : s.frRem - 1 = 0xFFFF := by rw [hzero]; decide
  refine ⟨?_, fun hinv => hinv.frRem_ne_zero hbusy hzero⟩
  calc exec (.frData imm8) s
      = execFrData imm8 s := rfl
    _ = .next { s with egress := s.egress ++ [imm8], crc := crcStep s.crc imm8, frRem := s.frRem - 1, rsp := none } :=
        execFrData_of_frRem_sub_one_ne_zero imm8 hfault hbusy (by rw [hwrap]; decide)
    _ = .next
          { s with egress := s.egress ++ [imm8], crc := Config.T (s.crc ^^^ imm8), frRem := 0xFFFF, rsp := none } := by
        rw [hwrap]; rfl

end Sys2Proof.Machine
end

section
/-! SUPPORT. An op word that decodes is the encoding of its instruction (spec 30_encoding.md R72 to R78, R82): no bit of a
legal word is dropped, so the word a fault records (60_exceptions.md R204) is the word the host issued. -/

namespace Sys2Proof

variable {w m : OpWord} {op : Byte}

/-- A word in a format N row is that row's word (R72). -/
theorem formatN_of_mask (hop : op.toNat * 16777216 = m.toNat) (h : w &&& 0xFFFFFFFF#32 = m) : formatN op = w := by
  have hw := (full_row_iff w m).mp h
  apply BitVec.eq_of_toNat_eq
  rw [formatN_toNat, hop, hw]

/-- A word in a format B or R row is the row's opcode with the word's own byte operand (R73, R75). -/
theorem formatB_of_mask (hop : op.toNat * 16777216 = m.toNat) (h : w &&& 0xFFFFFF00#32 = m) :
    formatB op (imm8Of w) = w := by
  have hw := (byte_row_iff w m).mp h
  apply BitVec.eq_of_toNat_eq
  rw [formatB_toNat, imm8Of_toNat, hop]
  omega

/-- A word in the format F row is the row's opcode with the word's own command and length (R74). -/
theorem formatF_of_mask (hop : op.toNat * 16777216 = m.toNat) (h : w &&& 0xFFF80000#32 = m) :
    formatF op (cmdOf w) (lenOf w) = w := by
  have hw := (begin_row_iff w m).mp h
  apply BitVec.eq_of_toNat_eq
  rw [formatF_toNat, cmdOf_number_toNat, lenOf_toNat, hop]
  omega

/-- Every row of the operation map builds an instruction whose encoding is the word it matched (R76, R82). -/
theorem encode_build (w : OpWord) : ∀ r ∈ opRows, w &&& r.mask = r.bits → encode (r.build w) = .op w := by
  simp only [opRows, List.forall_mem_cons]
  exact ⟨fun h => congrArg _ (formatN_of_mask (by decide) h), fun h => congrArg _ (formatN_of_mask (by decide) h),
    fun h => congrArg _ (formatB_of_mask (by decide) h), fun h => congrArg _ (formatN_of_mask (by decide) h),
    fun h => congrArg _ (formatB_of_mask (by decide) h), fun h => congrArg _ (formatB_of_mask (by decide) h),
    fun h => congrArg _ (formatF_of_mask (by decide) h), fun h => congrArg _ (formatB_of_mask (by decide) h),
    fun h => congrArg _ (formatN_of_mask (by decide) h), fun h => congrArg _ (formatN_of_mask (by decide) h),
    fun h => congrArg _ (formatB_of_mask (by decide) h), fun h => congrArg _ (formatN_of_mask (by decide) h),
    fun _ h => absurd h List.not_mem_nil⟩

/-- The row that a legal word matches (R77). -/
theorem exists_row_of_decodeOp {i : Instr} (h : decodeOp w = .ok i) :
    ∃ r ∈ opRows, w &&& r.mask = r.bits ∧ r.build w = i := by
  unfold decodeOp at h
  split at h
  next r hr =>
    have hcovers : r.covers w = true := List.find?_some (p := fun row => OpRow.covers row w) hr
    exact ⟨r, List.mem_of_find?_eq_some hr, eq_of_beq hcovers, Except.ok.inj h⟩
  next => split at h <;> cases h

/-- A legal word is the encoding of the instruction it decodes to (R72 to R78). -/
theorem encode_of_decodeOp {i : Instr} (h : decodeOp w = .ok i) : encode i = .op w := by
  obtain ⟨r, hr, hmask, rfl⟩ := exists_row_of_decodeOp h
  exact encode_build w r hr hmask

/-- The op word of a decoded instruction is the word it was decoded from (60_exceptions.md R204). -/
theorem opWord_of_decodeOp {i : Instr} (h : decodeOp w = .ok i) : i.opWord = w := by
  simp [Instr.opWord, encode_of_decodeOp h]

end Sys2Proof
end

section
/-! SUPPORT. What any step can do, said once: which state each of the host's inputs leads to (spec 10_state.md R49, R63;
60_exceptions.md R205; 70_reset_and_hazards.md R231), and what an instruction that answers a next state has done. -/

namespace Sys2Proof.Machine

variable {s t : State} {i : Instr} {c : Cause} {rest : List Input}

/-! ### One step per input -/

theorem step_of_idle (h : s.inputs = []) : step s = .next s.quiet := by
  simp [step, s.fetch_idle h]

theorem step_of_resetI (h : s.inputs = .resetI :: rest) :
    step s = .next { s with inputs := rest }.applyReset := by
  simp [step, s.fetch_resetI rest h]

theorem step_of_decode {code : Code} (h : s.inputs = .code code :: rest) (hd : decode code = .ok i) :
    step s = exec i { s with inputs := rest } := by
  simp [step, s.fetch_code code rest h, fetchedOf_ok code i hd]

theorem step_of_illegal {w : OpWord} {e : Reject} (h : s.inputs = .code (.op w) :: rest)
    (hd : decodeOp w = .error e) :
    step s = .next ({ s with inputs := rest }.raise .illegalOp w) := by
  simp [step, s.fetch_code _ rest h, fetchedOf_op_error w e hd, State.illegalOp]

/-- A frame opcode row is the reader's answer with its command (30_encoding.md R81). -/
theorem exec_frameInstr (cmd : CommandId) (s : State) :
    exec cmd.frameInstr s = .next (s.readerAnswer (some cmd)) := by
  cases cmd <;> rfl

/-- A frame opcode byte gives the reader the table's backward reading, a command or none (30_encoding.md R81). -/
theorem step_of_frame {b : Byte} (h : s.inputs = .code (.frame b) :: rest) :
    step s = .next ({ s with inputs := rest }.readerAnswer (commandOfOpcode b)) := by
  cases hb : commandOfOpcode b with
  | some cmd =>
    have hd : decode (.frame b) = .ok cmd.frameInstr := by simp [decode, decodeFrameOpcode, hb]
    rw [step_of_decode h hd, exec_frameInstr]
  | none =>
    have hd : decode (.frame b) = .error .unknownFrameOpcode := by simp [decode, decodeFrameOpcode, hb]
    simp [step, s.fetch_code _ rest h, fetchedOf_frame_error b _ hd]

/-- Everything a step can do, by the host's next input. -/
theorem step_cases (h : step s = .next t) :
    (s.inputs = [] ∧ t = s.quiet) ∨
    (∃ rest, s.inputs = .resetI :: rest ∧ t = { s with inputs := rest }.applyReset) ∨
    (∃ w rest i, s.inputs = .code (.op w) :: rest ∧ decodeOp w = .ok i ∧ exec i { s with inputs := rest } = .next t) ∨
    (∃ w rest e, s.inputs = .code (.op w) :: rest ∧ decodeOp w = .error e ∧
      t = { s with inputs := rest }.raise .illegalOp w) ∨
    (∃ b rest, s.inputs = .code (.frame b) :: rest ∧
      t = { s with inputs := rest }.readerAnswer (commandOfOpcode b)) := by
  match hin : s.inputs with
  | [] =>
    rw [step_of_idle hin] at h
    exact .inl ⟨rfl, (Host.Outcome.next.inj h).symm⟩
  | .resetI :: rest =>
    rw [step_of_resetI hin] at h
    exact .inr (.inl ⟨rest, rfl, (Host.Outcome.next.inj h).symm⟩)
  | .code (.op w) :: rest =>
    cases hd : decodeOp w with
    | ok i =>
      rw [step_of_decode hin hd] at h
      exact .inr (.inr (.inl ⟨w, rest, i, rfl, hd, h⟩))
    | error e =>
      rw [step_of_illegal hin hd] at h
      exact .inr (.inr (.inr (.inl ⟨w, rest, e, rfl, hd, (Host.Outcome.next.inj h).symm⟩)))
  | .code (.frame b) :: rest =>
    rw [step_of_frame hin] at h
    exact .inr (.inr (.inr (.inr ⟨b, rest, rfl, (Host.Outcome.next.inj h).symm⟩)))

/-! ### One instruction -/

/-- Instruction `i` raises cause `c` in state `s`: the "raised by" column of 60_exceptions.md R200, with R202 and R203. -/
inductive Faults (s : State) : Instr → Cause → Prop where
  | rdreg (reg : Byte) : regOfIndex reg = none → Faults s (.rdreg reg) .badReg
  | crcClr : s.frBusy = true → Faults s .crcClr .frameBusy
  | crcUpd (b : Byte) : s.frBusy = true → Faults s (.crcUpd b) .frameBusy
  | frBegin (cmd : CommandId) (len : Half) : s.frBusy = true → Faults s (.frBegin cmd len) .frameBusy
  | serEmit : s.frBusy = true → Faults s .serEmit .frameBusy
  | frData (b : Byte) : s.frBusy = false → Faults s (.frData b) .noFrame
  | serPix (b : Byte) : s.serIdx.toNat = Config.HRES → Faults s (.serPix b) .pixelOverflow

/-- Instruction `i` executes in state `s`, neither discarded nor faulting, and leads to the last argument. -/
inductive Executes (s : State) : Instr → State → Prop where
  | nop : Executes s .nop s.quiet
  | srst : Executes s .srst s.applyReset
  | rdreg (reg : Byte) (r : Reg) : regOfIndex reg = some r → Executes s (.rdreg reg) (s.respond (s.readReg r))
  | crcClr : s.fault = false → s.frBusy = false → Executes s .crcClr s.crcInit.quiet
  | crcUpd (b : Byte) : s.fault = false → s.frBusy = false → Executes s (.crcUpd b) (s.crcAdd b).quiet
  | crcTab (b : Byte) : s.fault = false → Executes s (.crcTab b) (s.respond ((Config.T b).zeroExtend 16))
  | frBeginEmpty (cmd : CommandId) : s.fault = false → s.frBusy = false →
      Executes s (.frBegin cmd 0)
        { s with
          egress := s.egress ++ header cmd 0 ++ footer Config.CRC_INIT, crc := Config.CRC_INIT, frCmd := cmd,
          frLen := 0, frRem := 0, frBusy := false, rsp := none }
  | frBegin (cmd : CommandId) (len : Half) : s.fault = false → s.frBusy = false → len ≠ 0 →
      Executes s (.frBegin cmd len)
        { s with
          egress := s.egress ++ header cmd len, crc := Config.CRC_INIT, frCmd := cmd, frLen := len, frRem := len,
          frBusy := true, rsp := none }
  | frDataLast (b : Byte) : s.fault = false → s.frBusy = true → s.frRem - 1 = 0 →
      Executes s (.frData b)
        { s with
          egress := s.egress ++ [b] ++ footer (crcStep s.crc b), crc := crcStep s.crc b, frRem := 0, frBusy := false,
          rsp := none }
  | frData (b : Byte) : s.fault = false → s.frBusy = true → s.frRem - 1 ≠ 0 →
      Executes s (.frData b)
        { s with egress := s.egress ++ [b], crc := crcStep s.crc b, frRem := s.frRem - 1, rsp := none }
  | frAbort : s.fault = false → s.frBusy = true →
      Executes s .frAbort { s with frBusy := false, frRem := 0, rsp := none }
  | frAbortIdle : s.fault = false → s.frBusy = false → Executes s .frAbort s.quiet
  | serClr : s.fault = false → Executes s .serClr s.clearRow.quiet
  | serPix (b : Byte) : s.fault = false → ∀ hi : s.serIdx.toNat / 8 < Config.ROW_BYTES,
      Executes s (.serPix b) { s.putDot s.serIdx.toNat hi (isDark b) with serIdx := s.serIdx + 1, rsp := none }
  | serEmit : s.fault = false → s.frBusy = false →
      Executes s .serEmit
        { s with
          egress := s.egress ++ encodeFrame .bitmapData s.row.toList, crc := checksum s.row.toList,
          frCmd := .bitmapData, frLen := BitVec.ofNat 16 Config.ROW_BYTES, frRem := 0,
          row := Vector.replicate Config.ROW_BYTES 0x00, serIdx := 0, rsp := none }
  | frameOpcode (cmd : CommandId) : Executes s cmd.frameInstr (s.readerAnswer (some cmd))

/-- The state after instruction `i` has raised cause `c` while `fault` = 0 (60_exceptions.md R204). -/
def State.faulted (s : State) (i : Instr) (c : Cause) : State :=
  { s with fault := true, faultCause := c, faultOp := i.opWord, rsp := none }

/-- Every instruction that answers a next state was discarded (R205), entered a fault (R204) or executed. -/
def ExecCase (i : Instr) (s t : State) : Prop :=
  (s.fault = true ∧ t = s.discard) ∨
  (s.fault = false ∧ ∃ c, Faults s i c ∧ t = s.faulted i c) ∨
  Executes s i t

theorem ExecCase.of_discard (h : s.fault = true ∧ t = s.discard) : ExecCase i s t := .inl h

theorem ExecCase.of_faults (h : Faults s i c) (ht : t = s.raise c i.opWord) : ExecCase i s t := by
  obtain ⟨hf, hr⟩ | ⟨hf, hr⟩ := raise_cases (s := s) c i.opWord
  · exact .inl ⟨hf, ht.trans hr⟩
  · exact .inr (.inl ⟨hf, c, h, ht.trans hr⟩)

theorem ExecCase.of_executes {t' : State} (h : Executes s i t') (ht : t = t') : ExecCase i s t := .inr (.inr (ht ▸ h))

/-- A frame opcode row executes whatever the state (30_encoding.md R81). -/
theorem ExecCase.of_frameInstr (cmd : CommandId) (h : exec cmd.frameInstr s = .next t) : ExecCase cmd.frameInstr s t :=
  .of_executes (.frameOpcode cmd) (Host.Outcome.next.inj ((exec_frameInstr cmd s).symm.trans h)).symm

/-- Everything an instruction can do. -/
theorem exec_cases (h : exec i s = .next t) : ExecCase i s t := by
  cases i with
  | nop => exact .of_executes .nop (execNop_cases h)
  | srst => exact .of_executes .srst (execSrst_cases h)
  | rdreg reg =>
    obtain ⟨r, hr, ht⟩ | ⟨hr, ht⟩ := execRdreg_cases h
    · exact .of_executes (.rdreg reg r hr) ht
    · exact .of_faults (.rdreg reg hr) ht
  | crcClr =>
    obtain hd | ⟨-, hb, ht⟩ | ⟨hf, hb, ht⟩ := execCrcClr_cases h
    · exact .of_discard hd
    · exact .of_faults (.crcClr hb) ht
    · exact .of_executes (.crcClr hf hb) ht
  | crcUpd b =>
    obtain hd | ⟨-, hb, ht⟩ | ⟨hf, hb, ht⟩ := execCrcUpd_cases h
    · exact .of_discard hd
    · exact .of_faults (.crcUpd b hb) ht
    · exact .of_executes (.crcUpd b hf hb) ht
  | crcTab b =>
    obtain hd | ⟨hf, ht⟩ := execCrcTab_cases h
    · exact .of_discard hd
    · exact .of_executes (.crcTab b hf) ht
  | frBegin cmd len =>
    obtain hd | ⟨-, hb, ht⟩ | ⟨hf, hb, rfl, ht⟩ | ⟨hf, hb, hl, ht⟩ := execFrBegin_cases h
    · exact .of_discard hd
    · exact .of_faults (.frBegin cmd len hb) ht
    · exact .of_executes (.frBeginEmpty cmd hf hb) ht
    · exact .of_executes (.frBegin cmd len hf hb hl) ht
  | frData b =>
    obtain hd | ⟨-, hb, ht⟩ | ⟨hf, hb, hr, ht⟩ | ⟨hf, hb, hr, ht⟩ := execFrData_cases h
    · exact .of_discard hd
    · exact .of_faults (.frData b hb) ht
    · exact .of_executes (.frDataLast b hf hb hr) ht
    · exact .of_executes (.frData b hf hb hr) ht
  | frAbort =>
    obtain hd | ⟨hf, hb, ht⟩ | ⟨hf, hb, ht⟩ := execFrAbort_cases h
    · exact .of_discard hd
    · exact .of_executes (.frAbort hf hb) ht
    · exact .of_executes (.frAbortIdle hf hb) ht
  | serClr =>
    obtain hd | ⟨hf, ht⟩ := execSerClr_cases h
    · exact .of_discard hd
    · exact .of_executes (.serClr hf) ht
  | serPix b =>
    obtain hd | ⟨-, hfull, ht⟩ | ⟨hf, hi, ht⟩ := execSerPix_cases h
    · exact .of_discard hd
    · exact .of_faults (.serPix b hfull) ht
    · exact .of_executes (.serPix b hf hi) ht
  | serEmit =>
    obtain hd | ⟨-, hb, ht⟩ | ⟨hf, hb, ht⟩ := execSerEmit_cases h
    · exact .of_discard hd
    · exact .of_faults (.serEmit hb) ht
    · exact .of_executes (.serEmit hf hb) ht
  | paper => exact .of_frameInstr .paper h
  | getDeviceState => exact .of_frameInstr .getDeviceState h
  | quality => exact .of_frameInstr .quality h
  | energy => exact .of_frameInstr .energy h
  | lattice => exact .of_frameInstr .lattice h
  | printSpeed => exact .of_frameInstr .printSpeed h
  | printMode => exact .of_frameInstr .printMode h
  | bitmapData => exact .of_frameInstr .bitmapData h

end Sys2Proof.Machine
end

section
/-! SUPPORT and proof for the serializer invariant of spec 10_state.md R31 with R29's range: it speaks of `ser_idx` and the
row alone, a clear row meets it, and SER.PIX moves `ser_idx` past the one dot it writes. -/

namespace Sys2Proof.Machine

variable {s t : State} {i : Instr}

theorem SerializerInv.congr (hs : SerializerInv s) (hidx : t.serIdx = s.serIdx) (hrow : t.row = s.row) :
    SerializerInv t := by
  unfold SerializerInv
  rw [hidx, hrow]
  exact hs

/-- R151, R230: with the row clear and `ser_idx` 0 every dot is 0. -/
theorem SerializerInv.of_clear (hidx : t.serIdx = 0) (hrow : t.row = Vector.replicate Config.ROW_BYTES 0x00) :
    SerializerInv t := by
  refine ⟨by simp [hidx], fun j _ _ => ?_⟩
  rw [hrow, dotOf_clear]

/-- R152: the dot at `ser_idx` is written and `ser_idx` moves on by one, which does not wrap within the row. -/
theorem SerializerInv.putDot (hs : SerializerInv s) (hi : s.serIdx.toNat / 8 < Config.ROW_BYTES) (v : Bool)
    (hidx : t.serIdx = s.serIdx + 1) (hrow : t.row = (s.putDot s.serIdx.toNat hi v).row) : SerializerInv t := by
  obtain ⟨-, hwhite⟩ := hs
  have hlt : s.serIdx.toNat < 384 := by
    have : s.serIdx.toNat / 8 < 48 := hi
    omega
  have hnext : t.serIdx.toNat = s.serIdx.toNat + 1 := by
    rw [hidx, BitVec.toNat_add]
    exact Nat.mod_eq_of_lt (by simp; omega)
  refine ⟨hnext ▸ hlt, fun j hj hrange => ?_⟩
  rw [hrow, State.dotOf_putDot, if_neg (by omega)]
  exact hwhite j (by omega) hrange

theorem Executes.serializerInv (h : Executes s i t) (hs : SerializerInv s) : SerializerInv t := by
  cases h with
  | srst | serClr | serEmit => exact .of_clear rfl rfl
  | serPix b _ hi => exact hs.putDot hi (isDark b) rfl rfl
  | _ => exact hs.congr rfl rfl

theorem exec_serializerInv (hs : SerializerInv s) (h : exec i s = .next t) : SerializerInv t := by
  obtain ⟨-, rfl⟩ | ⟨-, c, -, rfl⟩ | hexec := exec_cases h
  · exact hs.congr rfl rfl
  · exact hs.congr rfl rfl
  · exact hexec.serializerInv hs

theorem step_serializerInv (hs : SerializerInv s) (h : step s = .next t) : SerializerInv t := by
  obtain ⟨-, rfl⟩ | ⟨rest, -, rfl⟩ | ⟨w, rest, i, -, -, hexec⟩ | ⟨w, rest, e, -, -, rfl⟩ | ⟨b, rest, -, rfl⟩ :=
    step_cases h
  · exact hs.congr rfl rfl
  · exact .of_clear rfl rfl
  · exact exec_serializerInv (s := { s with inputs := rest }) (hs.congr rfl rfl) hexec
  · exact hs.congr (State.raise_serIdx ..) (State.raise_row ..)
  · exact hs.congr rfl rfl

/-- Settles O42, by the cases of an instruction and of a step. -/
theorem serializerInvKept : Obligations.SerializerInvKept :=
  ⟨fun _ _ _ hs h => exec_serializerInv hs h, fun _ _ hs h => step_serializerInv hs h, fun _ => .of_clear rfl rfl⟩

/-- Settles O27: above `HRES` the row has no byte for the dot, and R29's range excludes the state. -/
theorem serPixBeyondTheRowStops : Obligations.SerPixBeyondTheRowStops := by
  intro imm8 s hfault habove
  have hfull : s.serIdx.toNat ≠ Config.HRES := by unfold Config.HRES; omega
  have hbyte : ¬ s.serIdx.toNat / 8 < Config.ROW_BYTES := by simp only [Config.ROW_BYTES, Config.HRES]; omega
  refine ⟨?_, fun ⟨hrange, _⟩ => absurd habove (Nat.not_lt.mpr hrange)⟩
  calc exec (.serPix imm8) s
      = execSerPix imm8 s := rfl
    _ = .fault .rowIndexOutOfRange := by
        unfold execSerPix
        rw [State.gated_of_clear s _ hfault, if_neg hfull, dif_neg hbyte]

end Sys2Proof.Machine
end

section
/-! SUPPORT and proof for the fault record of spec 10_state.md R32 to R34: a step resets it, keeps it, or enters a fault whose
cause the op word of that very step can raise (60_exceptions.md R200, R204). -/

namespace Sys2Proof.Machine

variable {s t : State} {i : Instr} {c : Cause} {w : OpWord}

/-- No op word raises the cause NONE (R200). -/
theorem ne_none_of_causeFits (h : causeFits c w = true) : c ≠ .none := by
  rintro rfl
  cases h

/-- R201: an illegal word can have raised ILLEGAL_OP. -/
theorem causeFits_illegalOp {e : Reject} (h : decodeOp w = .error e) : causeFits .illegalOp w = true := by
  simp [causeFits, h]

/-- The word of an instruction that raises a cause can have raised it (R200). -/
theorem Faults.causeFits (h : Faults s i c) (hd : decodeOp w = .ok i) : causeFits c w = true := by
  cases h with
  | rdreg reg hr => simp [Machine.causeFits, hd, hr]
  | _ => simp [Machine.causeFits, hd]

/-- Only SRST's execution touches the fault record (R181, R204). -/
theorem Executes.faultRecord (h : Executes s i t) :
    (i = .srst ∧ t = s.applyReset) ∨
    (t.fault = s.fault ∧ t.faultCause = s.faultCause ∧ t.faultOp = s.faultOp) := by
  cases h with
  | srst => exact .inl ⟨rfl, rfl⟩
  | _ => exact .inr ⟨rfl, rfl, rfl⟩

/-- The word of SRST (43_control.md R181). -/
theorem eq_of_decodeOp_srst (h : decodeOp w = .ok .srst) : w = 0x01000000 := by
  rw [← opWord_of_decodeOp h]
  decide

/-- What a step can do to the fault record: RESET_I or SRST resets it, an op word's fault entry sets it while `fault` = 0,
and every other step keeps it (R32, R204, R205, R230). -/
theorem step_fault_cases (h : step s = .next t) :
    (∃ rest, (s.inputs = .resetI :: rest ∨ s.inputs = .code (.op 0x01000000) :: rest) ∧
      t = { s with inputs := rest }.applyReset) ∨
    (t.fault = s.fault ∧ t.faultCause = s.faultCause ∧ t.faultOp = s.faultOp) ∨
    (s.fault = false ∧ ∃ (c : Cause) (w : OpWord) (rest : List Input), s.inputs = .code (.op w) :: rest ∧
      causeFits c w = true ∧
      t = { s with inputs := rest, fault := true, faultCause := c, faultOp := w, rsp := none }) := by
  obtain ⟨-, rfl⟩ | ⟨rest, hin, rfl⟩ | ⟨w, rest, i, hin, hd, hexec⟩ | ⟨w, rest, e, hin, hd, rfl⟩ | ⟨b, rest, -, rfl⟩ :=
    step_cases h
  · exact .inr (.inl ⟨rfl, rfl, rfl⟩)
  · exact .inl ⟨rest, .inl hin, rfl⟩
  · obtain ⟨-, rfl⟩ | ⟨hf, c, hc, rfl⟩ | hdone := exec_cases hexec
    · exact .inr (.inl ⟨rfl, rfl, rfl⟩)
    · have hw := opWord_of_decodeOp hd
      exact .inr (.inr ⟨hf, c, w, rest, hin, hc.causeFits hd, by rw [State.faulted, hw]⟩)
    · obtain ⟨rfl, ht⟩ | hkept := hdone.faultRecord
      · exact .inl ⟨rest, .inr (eq_of_decodeOp_srst hd ▸ hin), ht⟩
      · exact .inr (.inl hkept)
  · obtain ⟨-, ht⟩ | ⟨hf, ht⟩ := raise_cases (s := { s with inputs := rest }) .illegalOp w
    · exact .inr (.inl (by rw [ht]; exact ⟨rfl, rfl, rfl⟩))
    · exact .inr (.inr ⟨hf, .illegalOp, w, rest, hin, causeFits_illegalOp hd, ht⟩)
  · exact .inr (.inl ⟨rfl, rfl, rfl⟩)

/-- Settles O43, by the cases of a step: a reset record is sound, a kept one stays so, a new one has a fitting cause. -/
theorem faultRecordKept : Obligations.FaultRecordKept := by
  intro s t hinv h
  obtain ⟨rest, -, rfl⟩ | ⟨hf, hc, hw⟩ | ⟨-, c, w, rest, -, hfits, rfl⟩ := step_fault_cases h
  · exact ⟨fun _ => ⟨rfl, rfl⟩, nofun⟩
  · unfold FaultInv
    rw [hf, hc, hw]
    exact hinv
  · exact ⟨nofun, fun _ => hfits⟩

/-- Settles O33, by the same cases of a step. -/
theorem faultLeftOnlyByReset : Obligations.FaultLeftOnlyByReset := by
  refine ⟨fun s t hs h => ?_, fun s t hs h ht => ?_, fun s => rfl⟩
  · obtain ⟨rest, hin, rfl⟩ | ⟨hf, hc, hw⟩ | ⟨hclear, -⟩ := step_fault_cases h
    · exact .inl ⟨⟨rest, hin⟩, rfl⟩
    · exact .inr ⟨hf.trans hs, hc, hw⟩
    · simp [hs] at hclear
  · obtain ⟨rest, -, rfl⟩ | ⟨hf, -⟩ | ⟨-, c, w, rest, hin, hfits, hentry⟩ := step_fault_cases h
    · cases ht
    · simp [hf, hs] at ht
    · exact ⟨c, w, rest, hin, ne_none_of_causeFits hfits, hentry⟩

end Sys2Proof.Machine
end

section
/-! Proofs of the statements about single elements of the state: who writes each (spec 10_state.md R20 to R37), the fields of
STATUS (R39), the reset values (R22), and the step of an input that decodes (20_memory.md R63). -/

namespace Sys2Proof.Machine

/-- Settles O37, by the cases of an instruction: a discard and a fault entry write only the response and the fault record,
and an execution only what its instruction is listed for. -/
theorem writersOfEachElement : Obligations.WritersOfEachElement := by
  intro i s t h
  obtain ⟨-, rfl⟩ | ⟨hf, c, -, rfl⟩ | hexec := exec_cases h
  · simp
  · simp [State.faulted, hf]
  · cases hexec <;> simp

/-- STATUS bit by bit: `fr_busy`, `fault`, `fr_cmd`, three zeros, `fault_cause`, four zeros (R39). -/
theorem State.getElem_status (s : State) (j : Nat) (hj : j < 16) :
    s.status[j] =
      if j < 1 then s.frBusy
      else if j < 2 then s.fault
      else if j < 5 then s.frCmd.number.getLsbD (j - 2)
      else if j < 8 then false
      else s.faultCause.code.getLsbD (j - 8) := by
  interval_cases j <;> simp [State.status, flagHalf]

/-- Settles O16: each field of STATUS bit by bit. -/
theorem statusFields : Obligations.StatusFields := by
  refine ⟨fun s => ⟨?_, ?_, ?_, ?_, ?_, ?_, rfl⟩, by decide⟩
  all_goals
    ext j hj
    interval_cases j <;> simp [State.readReg, State.getElem_status]

/-- Settles O11. -/
theorem resetStateValues : Obligations.ResetStateValues :=
  ⟨rfl, rfl, rfl, rfl, rfl, rfl, fun k => Vector.getElem_replicate k.isLt, rfl, rfl, rfl, rfl⟩

/-- Settles O9. -/
theorem stepRunsTheDecodedInstruction : Obligations.StepRunsTheDecodedInstruction :=
  fun _ _ _ _ hin hd => step_of_decode hin hd

end Sys2Proof.Machine
end

section
/-! SUPPORT and proof for op words over a byte-wide link (spec 20_memory.md R57; log entry 7): the word's bytes, appended the
most significant first, are the word, so either byte order reads back what it sent. -/

namespace Sys2Proof

/-- The bytes of a word put it together again (R57). -/
theorem append_bytes_eq (w : OpWord) :
    (w.extractLsb' 24 8 ++ w.extractLsb' 16 8 ++ w.extractLsb' 8 8 ++ w.extractLsb' 0 8 : OpWord) = w := by
  have hw := w.isLt
  apply BitVec.eq_of_toNat_eq
  simp only [four_bytes_toNat, BitVec.extractLsb'_toNat, Nat.shiftRight_eq_div_pow]
  omega

/-- In either order the link gives back the word whose bytes crossed it. -/
@[simp] theorem opWordOfLink_linkBytes (o : ByteOrder) (w : OpWord) : opWordOfLink o (linkBytes o w) = some w := by
  cases o <;> exact congrArg some (append_bytes_eq w)

theorem linkBytes_length (o : ByteOrder) (w : OpWord) : (linkBytes o w).length = 4 := by
  cases o <;> rfl

/-- In either order a link carries an op word in four bytes and in no other number of them. -/
theorem opWordOfLink_eq_none {o : ByteOrder} {bs : List Byte} (h : bs.length ≠ 4) : opWordOfLink o bs = none := by
  unfold opWordOfLink
  split
  case h_1 | h_2 => exact absurd rfl h
  case h_3 => rfl

theorem decodeLink_linkBytes (o : ByteOrder) (w : OpWord) : decodeLink o (linkBytes o w) = decodeOp w := by
  simp [decodeLink]

/-- Settles O8: what crosses the link in one order is read back in the same order, whichever it is. -/
theorem linkBytesCarryTheWord : Obligations.LinkBytesCarryTheWord := by
  refine ⟨fun o => ⟨fun w => ?_, fun bs h => ?_⟩, decodeLink_linkBytes Config.opByteOrder⟩
  · exact ⟨linkBytes_length o w, opWordOfLink_linkBytes o w, decodeLink_linkBytes o w⟩
  · simp [decodeLink, opWordOfLink_eq_none h]

end Sys2Proof
end

section
/-! SUPPORT and proof for the egress stream (spec 20_memory.md R53): an operation that only appends commutes with putting
earlier bytes in front of the stream. That one equation says both that no emitted byte is touched and that none is read, and
the ways operations are put together (gating, a choice, a fault entry) keep it. -/

namespace Sys2Proof.Machine

variable {s t : State}

/-- The state with the bytes `p` emitted before everything in `egress`. -/
def State.prepend (p : List Byte) (s : State) : State := { s with egress := p ++ s.egress }

/-- The outcome with the bytes `p` emitted before everything in its next state's `egress`. -/
def prependOutcome (p : List Byte) : Host.Outcome State Fault Refusal → Host.Outcome State Fault Refusal
  | .next t => .next (t.prepend p)
  | .fault r => .fault r
  | .refused r => .refused r

/-- The update `u` of the state commutes with earlier bytes in `egress`. -/
def KeepsPrefix (u : State → State) : Prop := ∀ p s, u (s.prepend p) = (u s).prepend p

/-- The operation `f` commutes with earlier bytes in `egress`. -/
def AppendsOnly (f : State → Host.Outcome State Fault Refusal) : Prop :=
  ∀ p s, f (s.prepend p) = prependOutcome p (f s)

/-- What commuting with earlier bytes says of a next state: the state with the stream empty shows the appended bytes. -/
theorem AppendsOnly.exists_append {f : State → Host.Outcome State Fault Refusal} (hf : AppendsOnly f)
    (h : f s = .next t) :
    ∃ bs, t.egress = s.egress ++ bs ∧ ∀ e : List Byte, f { s with egress := e } = .next { t with egress := e ++ bs } := by
  have hprefix (e : List Byte) : f { s with egress := e } = prependOutcome e (f { s with egress := [] }) := by
    rw [← hf]
    simp [State.prepend]
  have hs := (hprefix s.egress).symm.trans h
  cases hempty : f { s with egress := [] } with
  | next t₀ =>
    rw [hempty] at hs
    obtain rfl : t₀.prepend s.egress = t := Host.Outcome.next.inj hs
    exact ⟨t₀.egress, rfl, fun e => by rw [hprefix, hempty]; rfl⟩
  | fault r => rw [hempty] at hs; cases hs
  | refused r => rw [hempty] at hs; cases hs

/-! ### What does not look at the stream -/

/-- A fault entry neither reads nor writes the stream (60_exceptions.md R204). -/
theorem KeepsPrefix.raise (c : Cause) (w : OpWord) : KeepsPrefix (State.raise c w) := by
  intro p s
  cases hf : s.fault <;> simp [State.raise, State.prepend, State.discard, State.quiet, hf]

/-- No register reads the stream (10_state.md R38). -/
@[simp] theorem State.readReg_prepend (r : Reg) (p : List Byte) (s : State) :
    (s.prepend p).readReg r = s.readReg r := by
  cases r <;> rfl

/-! ### Ways to put operations together -/

section
variable {f g : State → Host.Outcome State Fault Refusal}

theorem AppendsOnly.next {u : State → State} (h : KeepsPrefix u) : AppendsOnly fun s => .next (u s) :=
  fun p s => congrArg Host.Outcome.next (h p s)

/-- A choice that does not look at `egress`. -/
theorem AppendsOnly.ite {P : State → Prop} [DecidablePred P] (hP : ∀ p s, P (s.prepend p) ↔ P s)
    (hf : AppendsOnly f) (hg : AppendsOnly g) : AppendsOnly fun s => if P s then f s else g s := by
  intro p s
  by_cases h : P s
  · simp [h, hP, hf p s]
  · simp [h, hP, hg p s]

theorem AppendsOnly.ifBusy (hf : AppendsOnly f) (hg : AppendsOnly g) :
    AppendsOnly fun s => if s.frBusy then f s else g s :=
  .ite (fun _ _ => Iff.rfl) hf hg

/-- The gating of 60_exceptions.md R205. -/
theorem AppendsOnly.gated (hf : AppendsOnly f) : AppendsOnly fun s => s.gated (f s) :=
  .ite (P := fun s => s.fault = true) (fun _ _ => Iff.rfl) (.next fun _ _ => rfl) hf

theorem AppendsOnly.raise (c : Cause) (w : OpWord) : AppendsOnly fun s => .next (s.raise c w) :=
  .next (.raise c w)

end

/-! ### Instructions -/

theorem execRdreg_appendsOnly (reg : Byte) : AppendsOnly (execRdreg reg) := by
  intro p s
  cases h : regOfIndex reg with
  | some r =>
    simp only [execRdreg, h, State.readReg_prepend]
    rfl
  | none => simpa [execRdreg, h] using AppendsOnly.raise .badReg (Instr.rdreg reg).opWord p s

theorem execFrBegin_appendsOnly (cmd : CommandId) (len : Half) : AppendsOnly (execFrBegin cmd len) := by
  refine .gated (.ifBusy (.raise _ _) (.ite (P := fun _ => len = 0) (fun _ _ => Iff.rfl) (.next ?_) (.next ?_)))
  all_goals
    intro p s
    simp [State.prepend, State.emit, State.crcInit]

theorem execFrData_appendsOnly (imm8 : Byte) : AppendsOnly (execFrData imm8) := by
  refine .gated (.ifBusy (.ite (P := fun s => s.frRem - 1 = 0) (fun _ _ => Iff.rfl) (.next ?_) (.next ?_)) (.raise _ _))
  all_goals
    intro p s
    simp [State.prepend, State.streamByte, State.emit, State.crcAdd, State.quiet]

theorem execSerPix_appendsOnly (imm8 : Byte) : AppendsOnly (execSerPix imm8) := by
  refine .gated (.ite (P := fun s => s.serIdx.toNat = Config.HRES) (fun _ _ => Iff.rfl) (.raise _ _) fun p s => ?_)
  by_cases h : s.serIdx.toNat / 8 < Config.ROW_BYTES
  · rw [dif_pos h]
    exact dif_pos h
  · rw [dif_neg h]
    exact dif_neg h

theorem execSerEmit_appendsOnly : AppendsOnly execSerEmit := by
  refine .gated (.ifBusy (.raise _ _) (.next fun p s => ?_))
  simp [State.prepend, State.emit, State.crcInit, State.streamBytes_eq, State.clearRow, State.quiet]

/-- Every instruction only appends to the stream, and none reads it. -/
theorem exec_appendsOnly (i : Instr) : AppendsOnly (exec i) := by
  cases i with
  | rdreg reg => exact execRdreg_appendsOnly reg
  | crcClr => exact .gated (.ifBusy (.raise _ _) (.next fun _ _ => rfl))
  | crcUpd imm8 => exact .gated (.ifBusy (.raise _ _) (.next fun _ _ => rfl))
  | crcTab imm8 => exact .gated (.next fun _ _ => rfl)
  | frBegin cmd len => exact execFrBegin_appendsOnly cmd len
  | frData imm8 => exact execFrData_appendsOnly imm8
  | frAbort => exact .gated (.ifBusy (.next fun _ _ => rfl) (.next fun _ _ => rfl))
  | serClr => exact .gated (.next fun _ _ => rfl)
  | serPix imm8 => exact execSerPix_appendsOnly imm8
  | serEmit => exact execSerEmit_appendsOnly
  | _ => exact .next fun _ _ => rfl

/-- So does every step, by the host's next input. -/
theorem step_appendsOnly : AppendsOnly step := by
  intro p s
  match hin : s.inputs with
  | [] =>
    rw [step_of_idle (s := s.prepend p) hin, step_of_idle hin]
    rfl
  | .resetI :: rest =>
    rw [step_of_resetI (s := s.prepend p) hin, step_of_resetI hin]
    rfl
  | .code (.op w) :: rest =>
    cases hd : decodeOp w with
    | ok i =>
      rw [step_of_decode (s := s.prepend p) hin hd, step_of_decode hin hd]
      exact exec_appendsOnly i p { s with inputs := rest }
    | error e =>
      rw [step_of_illegal (s := s.prepend p) hin hd, step_of_illegal hin hd]
      exact AppendsOnly.raise .illegalOp w p { s with inputs := rest }
  | .code (.frame b) :: rest =>
    rw [step_of_frame (s := s.prepend p) hin, step_of_frame hin]
    rfl

/-- Settles O34: a step commutes with earlier bytes in `egress`. -/
theorem egressOnlyGrows : Obligations.EgressOnlyGrows :=
  ⟨rfl, fun _ _ h => step_appendsOnly.exists_append h⟩

end Sys2Proof.Machine
end

section
/-! SUPPORT and proof for reads (spec 20_memory.md R61; 40_crc.md R105; 43_control.md R182): no register and no table entry
depends on the response, the one field that a read writes. -/

namespace Sys2Proof.Machine

variable {s t : State}

@[simp] theorem State.readReg_respond (r : Reg) (v : Half) : (s.respond v).readReg r = s.readReg r := by
  cases r <;> rfl

/-- RDREG of a register answers its value in every state, faulted or not (R182). -/
theorem exec_rdreg_index (r : Reg) (s : State) : exec (.rdreg r.index) s = .next (s.respond (s.readReg r)) := by
  simp [exec, execRdreg]

/-- CRC.TAB writes nothing but the response, and what it writes depends on `fault` alone (R105, R205). -/
theorem exec_crcTab (imm8 : Byte) (s : State) :
    exec (.crcTab imm8) s =
      .next { s with rsp := if s.fault then none else some ((Config.T imm8).zeroExtend 16) } := by
  cases hf : s.fault <;> simp [exec, execCrcTab, hf, State.discard, State.quiet, State.respond]

/-- Settles O38: a read changes only the response, so the same read after it finds what it found. -/
theorem readsHaveNoSideEffects : Obligations.ReadsHaveNoSideEffects := by
  refine ⟨fun r s t h => ?_, fun imm8 s t h => ?_⟩
  · obtain rfl : s.respond (s.readReg r) = t := Host.Outcome.next.inj ((exec_rdreg_index r s).symm.trans h)
    exact ⟨rfl, by rw [exec_rdreg_index, State.readReg_respond]; rfl⟩
  · obtain rfl := Host.Outcome.next.inj ((exec_crcTab imm8 s).symm.trans h)
    exact ⟨rfl, exec_crcTab imm8 _⟩

end Sys2Proof.Machine
end

section
/-! SUPPORT and proofs for the decoder and the encoder (spec 30_encoding.md R72 to R82). The major opcodes of the operation
map are distinct and every mask covers bits 31:24 (R77), so a word falls into one row at most; the decoder then reads back
what the encoder wrote, and each format's row is a statement about the word's major opcode and its must-be-zero bits. -/

namespace Sys2Proof

variable {w : OpWord} {op b : Byte} {i : Instr} {r r' : OpRow}

/-! ### One row at most (R77) -/

theorem majorOf_and (w m : OpWord) : majorOf (w &&& m) = majorOf w &&& majorOf m :=
  BitVec.extractLsb'_and

theorem opRows_major_nodup : (opRows.map fun r => majorOf r.bits).Nodup := by decide

theorem opRows_mask_covers_major : ∀ r ∈ opRows, majorOf r.mask = 0xFF := by decide

/-- A word has the major opcode of a row it falls into, because the row's mask covers bits 31:24. -/
theorem majorOf_of_row (hr : r ∈ opRows) (hw : w &&& r.mask = r.bits) : majorOf w = majorOf r.bits := by
  calc majorOf w
      = majorOf w &&& BitVec.allOnes 8 := BitVec.and_allOnes.symm
    _ = majorOf w &&& majorOf r.mask := by rw [opRows_mask_covers_major r hr]; rfl
    _ = majorOf r.bits := by rw [← majorOf_and, hw]

/-- No word falls into two rows, because the major opcodes are distinct. -/
theorem row_unique (hr : r ∈ opRows) (hr' : r' ∈ opRows) (hw : w &&& r.mask = r.bits) (hw' : w &&& r'.mask = r'.bits) :
    r = r' :=
  List.inj_on_of_nodup_map opRows_major_nodup hr hr' ((majorOf_of_row hr hw).symm.trans (majorOf_of_row hr' hw'))

/-- The rows a word falls into have distinct major opcodes, all equal to the word's. -/
theorem filter_rows_length_le_one (w : OpWord) : (opRows.filter fun r => w &&& r.mask == r.bits).length ≤ 1 := by
  set rows := opRows.filter fun r => w &&& r.mask == r.bits
  have hnodup : (rows.map fun r => majorOf r.bits).Nodup := opRows_major_nodup.sublist (List.filter_sublist.map _)
  have hsame : rows.map (fun r => majorOf r.bits) = List.replicate rows.length (majorOf w) := by
    refine List.eq_replicate_iff.mpr ⟨List.length_map _, fun c hc => ?_⟩
    obtain ⟨r, hr, rfl⟩ := List.mem_map.mp hc
    obtain ⟨hmem, hw⟩ := List.mem_filter.mp hr
    exact (majorOf_of_row hmem (eq_of_beq hw)).symm
  rw [hsame] at hnodup
  exact List.nodup_replicate.mp hnodup

/-- The decoder gives the operation of the row that the word falls into. -/
theorem decodeOp_of_row (hr : r ∈ opRows) (hw : w &&& r.mask = r.bits) : decodeOp w = .ok (r.build w) := by
  cases hd : decodeOp w with
  | ok i =>
    obtain ⟨r', hr', hw', rfl⟩ := exists_row_of_decodeOp hd
    rw [row_unique hr hr' hw hw']
  | error e =>
    unfold decodeOp at hd
    split at hd
    next => cases hd
    next hnone => exact absurd (beq_iff_eq.mpr hw) (List.find?_eq_none.mp hnone r hr)

/-- The decoder refuses exactly the words that fall into no row. -/
theorem decodeOp_error_iff : (∃ e, decodeOp w = .error e) ↔ ¬ ∃ r ∈ opRows, w &&& r.mask = r.bits := by
  constructor
  · rintro ⟨e, he⟩ ⟨r, hr, hw⟩
    rw [decodeOp_of_row hr hw] at he
    cases he
  · intro hnone
    cases hd : decodeOp w with
    | error e => exact ⟨e, rfl⟩
    | ok i =>
      obtain ⟨r, hr, hw, -⟩ := exists_row_of_decodeOp hd
      exact absurd ⟨r, hr, hw⟩ hnone

/-! ### Frame opcode bytes (R80, R81) -/

theorem commandOfOpcode_eq_some_iff (b : Byte) (c : CommandId) : commandOfOpcode b = some c ↔ Config.OPC c = b :=
  ⟨OPC_of_commandOfOpcode b c, fun h => h ▸ commandOfOpcode_OPC c⟩

theorem decode_frame_OPC (c : CommandId) : decode (.frame (Config.OPC c)) = .ok c.frameInstr := by
  simp [decode, decodeFrameOpcode]

theorem encode_frameInstr (c : CommandId) : encode c.frameInstr = .frame (Config.OPC c) := by
  cases c <;> rfl

theorem exists_command_of_decode_frame (h : decode (.frame b) = .ok i) :
    ∃ c : CommandId, Config.OPC c = b ∧ c.frameInstr = i := by
  simp only [decode, decodeFrameOpcode] at h
  split at h
  next c hc => exact ⟨c, OPC_of_commandOfOpcode b c hc, Except.ok.inj h⟩
  next => cases h

/-! ### Decode and encode are inverse -/

/-- The encoding of every instruction falls into a row of its table that gives the instruction back. -/
theorem encode_rowMatch : ∀ i : Instr, Laws.RowMatch.Statement i
  | .nop => Laws.RowMatch.nop
  | .srst => Laws.RowMatch.srst
  | .rdreg reg => Laws.RowMatch.rdreg reg
  | .crcClr => Laws.RowMatch.crcClr
  | .crcUpd imm8 => Laws.RowMatch.crcUpd imm8
  | .crcTab imm8 => Laws.RowMatch.crcTab imm8
  | .frBegin cmd len => Laws.RowMatch.frBegin cmd len
  | .frData imm8 => Laws.RowMatch.frData imm8
  | .frAbort => Laws.RowMatch.frAbort
  | .serClr => Laws.RowMatch.serClr
  | .serPix imm8 => Laws.RowMatch.serPix imm8
  | .serEmit => Laws.RowMatch.serEmit
  | .paper => Laws.RowMatch.paper
  | .getDeviceState => Laws.RowMatch.getDeviceState
  | .quality => Laws.RowMatch.quality
  | .energy => Laws.RowMatch.energy
  | .lattice => Laws.RowMatch.lattice
  | .printSpeed => Laws.RowMatch.printSpeed
  | .printMode => Laws.RowMatch.printMode
  | .bitmapData => Laws.RowMatch.bitmapData

/-- Settles O1: the encoding falls into a row that gives the instruction back, and the decoder selects that row. -/
theorem decodeOfEncode : Obligations.DecodeOfEncode := by
  intro i
  have hrow := encode_rowMatch i
  unfold Laws.RowMatch.Statement at hrow
  split at hrow
  next w hw =>
    obtain ⟨r, hr, hcovers, hbuild⟩ := hrow
    rw [hw, ← hbuild]
    exact decodeOp_of_row hr (eq_of_beq hcovers)
  next b hb =>
    obtain ⟨c, rfl, rfl⟩ := hrow
    rw [hb, decode_frame_OPC]

/-- Settles O2: a legal word is its row's word with its own operands, a legal byte its command's opcode. -/
theorem encodeOfDecode : Obligations.EncodeOfDecode := by
  intro c i h
  cases c with
  | op w => exact encode_of_decodeOp h
  | frame b =>
    obtain ⟨c, rfl, rfl⟩ := exists_command_of_decode_frame h
    exact encode_frameInstr c

/-! ### Operand fields (R82) -/

theorem formatB_imm8_toNat (h : formatB op b = w) : b.toNat = w.toNat % 256 := by
  rw [← h, ← imm8Of_toNat, imm8Of_formatB]

/-- Settles O5: a legal word is the encoding of its instruction, whose operands are the encoding's fields. -/
theorem operandFields : Obligations.OperandFields := by
  intro w
  refine ⟨fun reg h => ?_, fun imm8 h => ?_, fun cmd len h => ?_⟩
  · exact formatB_imm8_toNat (Code.op.inj (encode_of_decodeOp h))
  · obtain h | h | h | h := h <;> exact formatB_imm8_toNat (Code.op.inj (encode_of_decodeOp h))
  · obtain rfl : formatF 0x20#8 cmd len = w := Code.op.inj (encode_of_decodeOp h)
    exact ⟨by rw [← cmdOf_number_toNat, cmdOf_formatF], by rw [← lenOf_toNat, lenOf_formatF]⟩

/-! ### Legal words by format (R72 to R75, R78) -/

/-- Format N fixes the major opcode and bits 23:0 (R72). -/
theorem full_row_fields_iff (w m : OpWord) :
    w &&& 0xFFFFFFFF#32 = m ↔ majorOf w = majorOf m ∧ w.extractLsb' 0 24 = m.extractLsb' 0 24 := by
  have hw := w.isLt
  have hm := m.isLt
  rw [full_row_iff]
  simp only [← BitVec.toNat_inj, majorOf_toNat, BitVec.extractLsb'_toNat, Nat.shiftRight_zero]
  omega

/-- Formats B and R fix the major opcode and bits 23:8 (R73, R75). -/
theorem byte_row_fields_iff (w m : OpWord) :
    w &&& 0xFFFFFF00#32 = m ↔
      majorOf w = majorOf m ∧ w.extractLsb' 8 16 = m.extractLsb' 8 16 ∧ m.extractLsb' 0 8 = 0#8 := by
  have hw := w.isLt
  have hm := m.isLt
  rw [byte_row_iff]
  simp only [← BitVec.toNat_inj, majorOf_toNat, BitVec.extractLsb'_toNat, Nat.shiftRight_eq_div_pow,
    BitVec.toNat_ofNat]
  omega

/-- Format F fixes the major opcode and bits 23:19 (R74). -/
theorem begin_row_fields_iff (w m : OpWord) :
    w &&& 0xFFF80000#32 = m ↔
      majorOf w = majorOf m ∧ w.extractLsb' 19 5 = m.extractLsb' 19 5 ∧ m.extractLsb' 0 19 = 0#19 := by
  have hw := w.isLt
  have hm := m.isLt
  rw [begin_row_iff]
  simp only [← BitVec.toNat_inj, majorOf_toNat, BitVec.extractLsb'_toNat, Nat.shiftRight_eq_div_pow,
    BitVec.toNat_ofNat]
  omega

/-- The words that fall into a row, by format (R76, R78). -/
theorem exists_row_iff (w : OpWord) :
    (∃ r ∈ opRows, w &&& r.mask = r.bits) ↔
      (majorOf w ∈ [0x00#8, 0x01#8, 0x10#8, 0x22#8, 0x30#8, 0x32#8] ∧ w.extractLsb' 0 24 = 0) ∨
      (majorOf w ∈ [0x02#8, 0x11#8, 0x12#8, 0x21#8, 0x31#8] ∧ w.extractLsb' 8 16 = 0) ∨
      (majorOf w = 0x20#8 ∧ w.extractLsb' 19 5 = 0) := by
  simp only [opRows, List.mem_cons, List.not_mem_nil, or_false, or_and_right, exists_or, exists_eq_left,
    full_row_fields_iff, byte_row_fields_iff, begin_row_fields_iff, majorOf, BitVec.reduceExtractLsb', BitVec.ofNat_eq_ofNat,
    and_true]
  apply Iff.of_eq
  ac_rfl

/-! ### Fixed words, numbers and bytes -/

/-- Settles O6: each word by running the decoder. -/
theorem sampleWordsDecode : Obligations.SampleWordsDecode := by
  unfold Obligations.SampleWordsDecode
  decide

/-- Settles O7: the tables by their entries; one-to-one, because the backward reading gives each command back. -/
theorem commandNumbersAndOpcodes : Obligations.CommandNumbersAndOpcodes := by
  refine ⟨rfl, rfl, rfl, CommandId.number_ofNumber, fun c d h => ?_, commandOfOpcode_eq_some_iff⟩
  have hback : some c = some d := by rw [← commandOfOpcode_OPC c, h, commandOfOpcode_OPC]
  exact Option.some.inj hback

end Sys2Proof
end

section
/-! Proofs of the statements about a step on an illegal word (spec 30_encoding.md R77, R78; 60_exceptions.md R201, R205), on
a frame opcode byte (R80, R81) and without an input. -/

namespace Sys2Proof.Machine

variable {s : State} {w : OpWord} {e : Reject} {rest : List Input}

/-- An illegal word takes its fault entry, or is discarded while `fault` = 1, and does nothing else (R77, R204, R205). -/
theorem step_of_illegal_eq (h : s.inputs = .code (.op w) :: rest) (hd : decodeOp w = .error e) :
    step s = .next
      (if s.fault then { s with inputs := rest, rsp := none }
      else { s with inputs := rest, rsp := none, fault := true, faultCause := .illegalOp, faultOp := w }) :=
  step_of_illegal h hd

/-- A reserved read index enters BAD_REG with the word of its RDREG (R202, R204). -/
theorem execRdreg_of_reserved {reg : Byte} (hreg : regOfIndex reg = none) (hfault : s.fault = false) :
    execRdreg reg s = .next
      { s with fault := true, faultCause := .badReg, faultOp := formatB 0x02#8 reg, rsp := none } := by
  simp only [execRdreg, hreg, State.raise_of_clear, hfault]
  rfl

/-- Settles O3: distinct major opcodes under covering masks leave one row at most, and the decoder selects it. -/
theorem decoderSelectsTheRow : Obligations.DecoderSelectsTheRow := by
  refine ⟨opRows_major_nodup, opRows_mask_covers_major, fun w =>
    ⟨filter_rows_length_le_one w, fun r hr hw => decodeOp_of_row hr hw, fun hnone s rest hin => ?_⟩⟩
  obtain ⟨e, he⟩ : ∃ e, decodeOp w = .error e := decodeOp_error_iff.mpr fun ⟨r, hr, hw⟩ => hnone r hr hw
  exact step_of_illegal_eq hin he

/-- Settles O4: the refused words are those outside every row, and a reserved RDREG word is the encoding of its RDREG. -/
theorem illegalWords : Obligations.IllegalWords := by
  refine ⟨fun w => decodeOp_error_iff.trans (not_congr (exists_row_iff w)), fun w e s rest hd hfault hin => ?_,
    fun reg s hreg hfault => ?_⟩
  · rw [step_of_illegal_eq hin hd, hfault]
    rfl
  · have hword : 0x02000000#32 ||| reg.zeroExtend 32 = formatB 0x02#8 reg := rfl
    rw [hword]
    exact ⟨decodeOfEncode (.rdreg reg), execRdreg_of_reserved hreg hfault⟩

/-- Settles O10: without an input the step is quiet, and a byte that is no opcode gives the reader no command. -/
theorem stepWithoutInstruction : Obligations.StepWithoutInstruction := by
  refine ⟨fun s h => step_of_idle h, fun s b rest h hb => ?_⟩
  have hnone : commandOfOpcode b = none :=
    Option.eq_none_iff_forall_ne_some.mpr fun c hc => hb c (OPC_of_commandOfOpcode b c hc)
  rw [step_of_frame h, hnone]
  rfl

/-- Settles O29: each row is the reader's answer with its command, and an opcode byte reads back as its command. -/
theorem frameOpcodeRowsNameTheCommand : Obligations.FrameOpcodeRowsNameTheCommand := by
  refine ⟨fun s => ?_, fun s rest c h => ?_⟩
  · exact ⟨exec_frameInstr .paper s, exec_frameInstr .getDeviceState s, exec_frameInstr .quality s,
      exec_frameInstr .energy s, exec_frameInstr .lattice s, exec_frameInstr .printSpeed s,
      exec_frameInstr .printMode s, exec_frameInstr .bitmapData s⟩
  · rw [step_of_frame h, commandOfOpcode_OPC]
    rfl

end Sys2Proof.Machine
end

section
/-! SUPPORT and proofs for the assembler (spec 30_encoding.md section 5): an operation takes exactly the numbers of its
fields (R83), so a pseudo-instruction (R86) assembles byte by byte. -/

namespace Sys2Proof.Machine

/-! ### Operations (R83) -/

/-- An operation with one byte operand is taken exactly if the number is at most 255. -/
theorem if_fitsByte (n : Nat) (i : Instr) :
    (if fitsByte n then some i else none) = if n ≤ 255 then some i else none := by
  simp [fitsByte, Nat.lt_succ_iff]

@[simp] theorem fitsByte_toNat (b : Byte) : fitsByte b.toNat = true := decide_eq_true b.isLt

theorem all_fitsByte_map_toNat (bs : List Byte) : (bs.map BitVec.toNat).all fitsByte = true := by
  simp

theorem assembleOp_rdreg (n : Nat) :
    assembleOp (.rdreg n) = if n ≤ 255 then some (.rdreg (BitVec.ofNat 8 n)) else none :=
  if_fitsByte n _

theorem assembleOp_crcUpd (n : Nat) :
    assembleOp (.crcUpd n) = if n ≤ 255 then some (.crcUpd (BitVec.ofNat 8 n)) else none :=
  if_fitsByte n _

theorem assembleOp_crcTab (n : Nat) :
    assembleOp (.crcTab n) = if n ≤ 255 then some (.crcTab (BitVec.ofNat 8 n)) else none :=
  if_fitsByte n _

theorem assembleOp_frData (n : Nat) :
    assembleOp (.frData n) = if n ≤ 255 then some (.frData (BitVec.ofNat 8 n)) else none :=
  if_fitsByte n _

theorem assembleOp_serPix (n : Nat) :
    assembleOp (.serPix n) = if n ≤ 255 then some (.serPix (BitVec.ofNat 8 n)) else none :=
  if_fitsByte n _

theorem assembleOp_frBegin (cmd : CommandId) (len : Nat) :
    assembleOp (.frBegin cmd.number.toNat len) =
      if len ≤ 65535 then some (.frBegin cmd (BitVec.ofNat 16 len)) else none := by
  have hcmd : cmd.number.toNat < 8 := cmd.number.isLt
  have hwf : (AsmOp.frBegin cmd.number.toNat len).wf = decide (len ≤ 65535) := by
    rw [AsmOp.wf, decide_eq_true hcmd, Bool.true_and]
    rfl
  simp [assembleOp, hwf]

theorem assembleOp_frBegin_of_seven_lt {cmd : Nat} (len : Nat) (h : 7 < cmd) :
    assembleOp (.frBegin cmd len) = none := by
  have hcmd : ¬ cmd < 8 := Nat.not_lt.mpr h
  simp [assembleOp, AsmOp.wf, hcmd]

/-- Settles O55, operation by operation. -/
theorem assemblerRanges : Obligations.AssemblerRanges :=
  ⟨assembleOp_rdreg, assembleOp_crcUpd, assembleOp_crcTab, assembleOp_frData, assembleOp_serPix, assembleOp_frBegin,
    fun _ len h => assembleOp_frBegin_of_seven_lt len h⟩

/-! ### Pseudo-instructions (R86) -/

/-- Operations that carry one byte each assemble to instructions that carry the same bytes. -/
theorem mapM_assembleOp_bytes {mk : Nat → AsmOp} {mkInstr : Byte → Instr}
    (h : ∀ n, assembleOp (mk n) = if n ≤ 255 then some (mkInstr (BitVec.ofNat 8 n)) else none) (bs : List Byte) :
    ((bs.map BitVec.toNat).map mk).mapM assembleOp = some (bs.map mkInstr) := by
  induction bs with
  | nil => rfl
  | cons b bs ih =>
    have hb : b.toNat ≤ 255 := Nat.le_of_lt_succ b.isLt
    have hhead : assembleOp (mk b.toNat) = some (mkInstr b) := by simp [h, hb]
    simp only [List.map_cons, List.mapM_cons, hhead, ih]
    rfl

/-- A pseudo-instruction outside its condition assembles to nothing. -/
theorem assemblePseudo_of_not_wf {p : Pseudo} (h : p.wf = false) : assemblePseudo p = none := by
  simp [assemblePseudo, expandPseudo, h]

theorem assemblePseudo_crcBytes (bs : List Byte) :
    assemblePseudo (.crcBytes (bs.map BitVec.toNat)) = some (.crcClr :: bs.map .crcUpd) := by
  have hwf : (Pseudo.crcBytes (bs.map BitVec.toNat)).wf = true := all_fitsByte_map_toNat bs
  simp only [assemblePseudo, expandPseudo, hwf, if_true, Option.bind_some, List.mapM_cons,
    mapM_assembleOp_bytes assembleOp_crcUpd]
  rfl

theorem assemblePseudo_frFrame (cmd : CommandId) (bs : List Byte) (h : bs.length ≤ 65535) :
    assemblePseudo (.frFrame cmd.number.toNat (bs.map BitVec.toNat)) =
      some (.frBegin cmd (BitVec.ofNat 16 bs.length) :: bs.map .frData) := by
  have hcmd : cmd.number.toNat < 8 := cmd.number.isLt
  have hwf : (Pseudo.frFrame cmd.number.toNat (bs.map BitVec.toNat)).wf = true := by
    simp [Pseudo.wf, Config.MAX_LEN, hcmd, h]
  simp only [assemblePseudo, expandPseudo, hwf, if_true, Option.bind_some, List.mapM_cons, List.length_map,
    assembleOp_frBegin, h, mapM_assembleOp_bytes assembleOp_frData]
  rfl

theorem assemblePseudo_serRow (q : List Byte) (h : q.length ≤ 384) :
    assemblePseudo (.serRow (q.map BitVec.toNat)) = some (.serClr :: (q.map .serPix ++ [.serEmit])) := by
  have hwf : (Pseudo.serRow (q.map BitVec.toNat)).wf = true := by
    simp [Pseudo.wf, Config.HRES, h]
  simp only [assemblePseudo, expandPseudo, hwf, if_true, Option.bind_some, List.mapM_cons, List.mapM_append,
    mapM_assembleOp_bytes assembleOp_serPix]
  rfl

theorem assemblePseudo_rdrow {k : Nat} (h : k < 48) :
    assemblePseudo (.rdrow k) = some [.rdreg (BitVec.ofNat 8 (0x10 + k))] := by
  have hwf : (Pseudo.rdrow k).wf = true := decide_eq_true h
  have hindex : 0x10 + k ≤ 255 := by omega
  simp [assemblePseudo, expandPseudo, hwf, assembleOp_rdreg, hindex]

/-- Settles O54: the operations of each expansion assemble one by one, and a pseudo-instruction outside its condition
expands to nothing. -/
theorem pseudoExpansions : Obligations.PseudoExpansions := by
  refine ⟨assemblePseudo_crcBytes, assemblePseudo_frFrame, assemblePseudo_serRow, fun _ h => assemblePseudo_rdrow h,
    fun cmd ns h => assemblePseudo_of_not_wf ?_, fun ns h => assemblePseudo_of_not_wf ?_,
    fun k h => assemblePseudo_of_not_wf (decide_eq_false (Nat.not_lt.mpr h))⟩
  · simp [Pseudo.wf, Config.MAX_LEN, Nat.not_le.mpr h]
  · simp [Pseudo.wf, Config.HRES, Nat.not_le.mpr h]

/-! ### Names (R84, R85) -/

/-- Settles O56: the names are finitely many, and each is read. -/
theorem assemblerNames : Obligations.AssemblerNames := by
  exact ⟨by decide, by decide, by decide, by decide⟩

end Sys2Proof.Machine
end

section
/-! SUPPORT. The words beside a row of the operation map (spec 30_encoding.md R78, second case): the row's major opcode
with a must-be-zero operand bit set. -/

namespace Sys2Proof

variable {w : OpWord} {r : OpRow}

/-- A word with a row's major opcode falls into no other row, so outside this row it is refused for its reserved bits. -/
theorem decodeOp_reservedBits (hr : r ∈ opRows) (hmajor : majorOf w = majorOf r.bits) (hw : w &&& r.mask ≠ r.bits) :
    decodeOp w = .error .reservedBits := by
  have hnone : opRows.find? (fun row => row.covers w) = none := by
    refine List.find?_eq_none.mpr fun r' hr' hcovers => hw ?_
    have hw' : w &&& r'.mask = r'.bits := eq_of_beq hcovers
    have hsame : majorOf r.bits = majorOf r'.bits := hmajor.symm.trans (majorOf_of_row hr' hw')
    obtain rfl : r = r' := List.inj_on_of_nodup_map opRows_major_nodup hr hr' hsame
    exact hw'
  have hassigned : (opRows.any fun row => majorOf row.bits == majorOf w) = true :=
    List.any_eq_true.mpr ⟨r, hr, beq_iff_eq.mpr hmajor.symm⟩
  simp only [decodeOp, hnone, hassigned, if_true]

/-- Format N leaves no other word of the major opcode legal (R72, R78). -/
theorem decodeOp_reservedBits_of_full_mask (hr : r ∈ opRows) (hmask : r.mask = 0xFFFFFFFF#32)
    (hmajor : majorOf w = majorOf r.bits) (hw : w ≠ r.bits) : decodeOp w = .error .reservedBits := by
  refine decodeOp_reservedBits hr hmajor ?_
  rwa [hmask, and_full_mask]

/-- Formats B and R leave no word with a bit of 23:8 set legal (R73, R75, R78). -/
theorem decodeOp_reservedBits_of_byte_mask (hr : r ∈ opRows) (hmask : r.mask = 0xFFFFFF00#32)
    (hbits : r.bits.extractLsb' 8 16 = 0) (hmajor : majorOf w = majorOf r.bits) (hw : w.extractLsb' 8 16 ≠ 0) :
    decodeOp w = .error .reservedBits := by
  refine decodeOp_reservedBits hr hmajor fun hcovers => hw ?_
  rw [hmask] at hcovers
  obtain ⟨-, hreserved, -⟩ := (byte_row_fields_iff w r.bits).mp hcovers
  exact hreserved.trans hbits

end Sys2Proof
end

section
/-! Proofs for the CRC engine's operations (spec 40_crc.md R103 to R105): each operation's effect by `fault` and `fr_busy`,
and the loop that CRC.UPD runs over a byte sequence. -/

namespace Sys2Proof.Machine

variable {s t : State} {i : Instr}

/-! ### CRC.CLR and CRC.UPD (R103, R104) -/

theorem exec_crcClr_of_idle (hfault : s.fault = false) (hbusy : s.frBusy = false) :
    exec .crcClr s = .next { s with crc := Config.CRC_INIT, rsp := none } := by
  simp [exec, execCrcClr, hfault, hbusy, State.crcInit, State.quiet]

theorem exec_crcUpd_of_idle (imm8 : Byte) (hfault : s.fault = false) (hbusy : s.frBusy = false) :
    exec (.crcUpd imm8) s = .next { s with crc := crcStep s.crc imm8, rsp := none } := by
  simp [exec, execCrcUpd, hfault, hbusy, State.crcAdd, State.quiet]

theorem exec_crcClr_of_busy (hfault : s.fault = false) (hbusy : s.frBusy = true) :
    exec .crcClr s = .next (s.faulted .crcClr .frameBusy) := by
  simp [exec, execCrcClr, hfault, hbusy, State.faulted]

theorem exec_crcUpd_of_busy (imm8 : Byte) (hfault : s.fault = false) (hbusy : s.frBusy = true) :
    exec (.crcUpd imm8) s = .next (s.faulted (.crcUpd imm8) .frameBusy) := by
  simp [exec, execCrcUpd, hfault, hbusy, State.faulted]

/-- Settles O17, by `fr_busy`; CRC.CLR's word is the only one of its major opcode. -/
theorem crcClrResult : Obligations.CrcClrResult := by
  refine ⟨by decide, fun w hmajor hw => ?_, fun s hfault hbusy => exec_crcClr_of_idle hfault hbusy,
    fun s hfault hbusy => exec_crcClr_of_busy hfault hbusy⟩
  exact decodeOp_reservedBits_of_full_mask (r := ⟨0x10000000#32, 0xFFFFFFFF#32, fun _ => .crcClr⟩)
    (by simp [opRows]) rfl hmajor hw

/-- Settles O18, by `fr_busy`; a bit of 23:8 is reserved in CRC.UPD's word. -/
theorem crcUpdResult : Obligations.CrcUpdResult := by
  refine ⟨fun imm8 => rfl, fun w hmajor hw => ?_,
    fun imm8 s hfault hbusy => exec_crcUpd_of_idle imm8 hfault hbusy,
    fun imm8 s hfault hbusy => exec_crcUpd_of_busy imm8 hfault hbusy⟩
  exact decodeOp_reservedBits_of_byte_mask (r := ⟨0x11000000#32, 0xFFFFFF00#32, fun w => .crcUpd (imm8Of w)⟩)
    (by simp [opRows]) rfl (by decide) hmajor hw

/-! ### A byte sequence (R104) -/

theorem execAll_cons_of_next {is : List Instr} (h : exec i s = .next t) : execAll (i :: is) s = execAll is t := by
  simp [execAll, h]

/-- CRC.UPD of each byte in turn is the checksum loop from the present accumulator. -/
theorem execAll_crcUpd (bs : List Byte) (hfault : s.fault = false) (hbusy : s.frBusy = false) (hrsp : s.rsp = none) :
    execAll (bs.map .crcUpd) s = .next { s with crc := checksumFrom s.crc bs } := by
  induction bs generalizing s with
  | nil => rfl
  | cons b bs ih =>
    rw [List.map_cons, execAll_cons_of_next (exec_crcUpd_of_idle b hfault hbusy), checksumFrom_cons, hrsp]
    exact ih (s := { s with crc := crcStep s.crc b, rsp := none }) hfault hbusy rfl

/-- Settles O19: CRC.CLR starts the loop at `CRC_INIT`, where `checksum` starts. -/
theorem crcSequenceLeavesTheChecksum : Obligations.CrcSequenceLeavesTheChecksum := by
  intro bs s hfault hbusy
  rw [execAll_cons_of_next (exec_crcClr_of_idle hfault hbusy)]
  exact execAll_crcUpd bs hfault hbusy rfl

/-! ### CRC.TAB (R105) -/

/-- Settles O20, by `fault`; a bit of 23:8 is reserved in CRC.TAB's word. -/
theorem crcTabResult : Obligations.CrcTabResult := by
  refine ⟨fun imm8 => rfl, fun w hmajor hw => ?_, fun imm8 s hfault => ?_, fun imm8 s hfault => ?_⟩
  · exact decodeOp_reservedBits_of_byte_mask (r := ⟨0x12000000#32, 0xFFFFFF00#32, fun w => .crcTab (imm8Of w)⟩)
      (by simp [opRows]) rfl (by decide) hmajor hw
  · simp [exec_crcTab, hfault]
  · simp [exec_crcTab, hfault]

end Sys2Proof.Machine
end

section
/-! Proofs about the checksum and its table (spec 40_crc.md R101, R106). -/

namespace Sys2Proof.Machine

/-- Zeros keep the accumulator at zero under a table whose entry 0x00 is 0x00 (R106). -/
theorem checksumFromWith_zeros (T : Byte → Byte) (hT : T 0x00 = 0x00) (n : Nat) :
    checksumFromWith T 0x00 (List.replicate n 0x00) = 0x00 := by
  induction n with
  | zero => rfl
  | succ n ih =>
    have hstep : crcStepWith T 0x00 0x00 = 0x00 := hT
    rw [List.replicate_succ, checksumFromWith_cons, hstep, ih]

/-- Settles O52: `checksumWith` is a left fold from `CRC_INIT`, and the zero law is an induction on the zeros. -/
theorem crcLaws : Obligations.CrcLaws := by
  refine ⟨fun T s b => ?_, fun T s t => checksumFromWith_append T _ s t,
    fun T n hT => checksumFromWith_zeros T hT n, rfl⟩
  rw [checksumWith, checksumFromWith_append]
  rfl

/-- The table is the list of the entries that its procedure computes, index by index (R101). -/
theorem crcTable_eq_map_generatedEntry :
    Config.crcTable = (List.range 256).map fun n => generatedEntry (BitVec.ofNat 8 n) := by
  decide +kernel

theorem T_eq_generatedEntry (i : Byte) : Config.T i = generatedEntry i := by
  simp [Config.T, crcTable_eq_map_generatedEntry]

/-- Settles O53: the table's list is its procedure's, and the pinned entries are read from it. -/
theorem crcTableFacts : Obligations.CrcTableFacts :=
  ⟨T_eq_generatedEntry, by decide, by decide, by decide, by decide⟩

end Sys2Proof.Machine
end

section
/-! Proof for the byte counts of spec 70_reset_and_hazards.md R246, by what an instruction can do. -/

namespace Sys2Proof.Machine

variable {s t : State} {i : Instr}

/-- While `fault` = 1 no operation that executes appends a byte (R205). -/
theorem Executes.egress_of_fault (h : Executes s i t) (hs : s.fault = true) : t.egress = s.egress := by
  cases h <;> simp_all

/-- No instruction that executes sets `fault` (R204). -/
theorem Executes.fault_of_fault (h : Executes s i t) (ht : t.fault = true) : s.fault = true := by
  obtain ⟨-, rfl⟩ | ⟨hkept, -, -⟩ := h.faultRecord
  · cases ht
  · exact hkept.symm.trans ht

/-- Settles O35: a discard and a fault entry append nothing, and an execution appends its bytes in one piece: a header of
6, a footer of 2, a payload byte, a frame of 48 + 8. -/
theorem egressCounts : Obligations.EgressCounts := by
  intro i s t h
  obtain ⟨hs, rfl⟩ | ⟨-, c, -, rfl⟩ | hexec := exec_cases h
  · exact ⟨fun _ => rfl, by simp [hs]⟩
  · exact ⟨fun _ => rfl, by simp [State.faulted]⟩
  refine ⟨fun hfault => hexec.egress_of_fault (hfault.elim id hexec.fault_of_fault), fun _ _ => ?_⟩
  cases hexec with
  | frBeginEmpty cmd => simp
  | frBegin cmd len _ _ hlen => simpa using hlen
  | frDataLast b _ _ hrem => simp [sub_eq_zero.mp hrem]
  | frData b _ _ hrem => simpa using mt sub_eq_zero.mpr hrem
  | serEmit =>
    have hrow : s.row.toList.length = 48 := s.row.length_toList
    simp [hrow]
  | frameOpcode cmd => cases cmd <;> rfl
  | _ => rfl

end Sys2Proof.Machine
end

section
/-! SUPPORT and proof for the framer invariant of spec 10_state.md R28. It speaks of the six elements of the framer alone, so
what keeps these keeps it; of the rest, a step leaves the framer idle, opens a frame, or streams one payload byte. -/

namespace Sys2Proof.Machine

variable {s t u : State} {i : Instr}

/-- The framer's elements and the egress stream agree: everything that R28 and the bytes of an open frame rest on. -/
structure SameFrame (s t : State) : Prop where
  crc : t.crc = s.crc
  frBusy : t.frBusy = s.frBusy
  frCmd : t.frCmd = s.frCmd
  frLen : t.frLen = s.frLen
  frRem : t.frRem = s.frRem
  egress : t.egress = s.egress

theorem SameFrame.refl (s : State) : SameFrame s s := ⟨rfl, rfl, rfl, rfl, rfl, rfl⟩

theorem SameFrame.symm (h : SameFrame s t) : SameFrame t s :=
  ⟨h.crc.symm, h.frBusy.symm, h.frCmd.symm, h.frLen.symm, h.frRem.symm, h.egress.symm⟩

theorem SameFrame.trans (h : SameFrame s t) (h' : SameFrame t u) : SameFrame s u :=
  ⟨h'.crc.trans h.crc, h'.frBusy.trans h.frBusy, h'.frCmd.trans h.frCmd, h'.frLen.trans h.frLen,
    h'.frRem.trans h.frRem, h'.egress.trans h.egress⟩

theorem SameFrame.raise (s : State) (c : Cause) (w : OpWord) : SameFrame s (s.raise c w) := by
  constructor <;> simp

theorem FramerInv.congr (hs : FramerInv s) (h : SameFrame s t) : FramerInv t := by
  unfold FramerInv
  rw [h.crc, h.frBusy, h.frCmd, h.frLen, h.frRem, h.egress]
  exact hs

/-- R28's first point is all there is to an idle framer. -/
theorem FramerInv.of_idle (hbusy : t.frBusy = false) (hrem : t.frRem = 0) : FramerInv t := by
  simp [FramerInv, hbusy, hrem]

/-- R123: after its header a frame has no payload yet and expects every byte it declared. -/
theorem FramerInv.of_header {before : List Byte} (hrem : t.frRem = t.frLen) (hlen : t.frLen ≠ 0)
    (hcrc : t.crc = Config.CRC_INIT) (hegress : t.egress = before ++ header t.frCmd t.frLen) (hbusy : t.frBusy = true) :
    FramerInv t := by
  have hpos : 1 ≤ t.frLen.toNat := Nat.one_le_iff_ne_zero.mpr fun h => hlen (BitVec.eq_of_toNat_eq h)
  refine ⟨by simp [hbusy], fun _ => by rw [hrem]; exact ⟨hpos, le_rfl⟩, fun _ => ⟨before, [], ?_, ?_, hcrc⟩⟩
  · rw [hegress, List.append_nil]
  · simp [hrem]

/-- R124: the decrement of an open frame's count does not wrap. -/
theorem FramerInv.frRem_sub_one_toNat (hs : FramerInv s) (hbusy : s.frBusy = true) :
    (s.frRem - 1).toNat = s.frRem.toNat - 1 := by
  obtain ⟨-, hrange, -⟩ := hs
  exact BitVec.toNat_sub_of_le (BitVec.le_def.mpr (hrange hbusy).1)

/-- R124: a payload byte that is not the last joins the payload and its checksum and is no longer expected. -/
theorem FramerInv.of_payload_byte (hs : FramerInv s) (b : Byte) (hbusy : s.frBusy = true) (hrem : s.frRem - 1 ≠ 0) :
    FramerInv
      { s with egress := s.egress ++ [b], crc := crcStep s.crc b, frRem := s.frRem - 1, rsp := none } := by
  have hsub := hs.frRem_sub_one_toNat hbusy
  obtain ⟨-, hrange, hpayload⟩ := hs
  obtain ⟨hpos, hle⟩ := hrange hbusy
  obtain ⟨before, p, hegress, hlen, hcrc⟩ := hpayload hbusy
  have hmore : (s.frRem - 1).toNat ≠ 0 := fun h => hrem (BitVec.eq_of_toNat_eq h)
  refine ⟨by simp [hbusy], fun _ => by dsimp only; omega, fun _ => ⟨before, p ++ [b], ?_, ?_, ?_⟩⟩
  · simp only [hegress, List.append_assoc]
  · simp only [List.length_append, List.length_singleton, hlen]
    omega
  · rw [checksum_snoc, ← hcrc]

theorem Executes.framerInv (h : Executes s i t) (hs : FramerInv s) : FramerInv t := by
  cases h with
  | srst | frBeginEmpty | frDataLast | frAbort => exact .of_idle rfl rfl
  | crcClr _ hbusy | crcUpd _ _ hbusy => exact .of_idle hbusy (hs.1 hbusy)
  | frBegin cmd len _ _ hlen => exact .of_header rfl hlen rfl rfl rfl
  | frData b _ hbusy hrem => exact hs.of_payload_byte b hbusy hrem
  | serEmit _ hbusy => exact .of_idle hbusy rfl
  | _ => exact hs.congr ⟨rfl, rfl, rfl, rfl, rfl, rfl⟩

theorem exec_framerInv (hs : FramerInv s) (h : exec i s = .next t) : FramerInv t := by
  obtain ⟨-, rfl⟩ | ⟨-, c, -, rfl⟩ | hexec := exec_cases h
  · exact hs.congr ⟨rfl, rfl, rfl, rfl, rfl, rfl⟩
  · exact hs.congr ⟨rfl, rfl, rfl, rfl, rfl, rfl⟩
  · exact hexec.framerInv hs

theorem step_framerInv (hs : FramerInv s) (h : step s = .next t) : FramerInv t := by
  obtain ⟨-, rfl⟩ | ⟨rest, -, rfl⟩ | ⟨w, rest, i, -, -, hexec⟩ | ⟨w, rest, e, -, -, rfl⟩ | ⟨b, rest, -, rfl⟩ :=
    step_cases h
  · exact hs.congr ⟨rfl, rfl, rfl, rfl, rfl, rfl⟩
  · exact .of_idle rfl rfl
  · exact exec_framerInv (s := { s with inputs := rest }) (hs.congr ⟨rfl, rfl, rfl, rfl, rfl, rfl⟩) hexec
  · exact FramerInv.congr (s := { s with inputs := rest }) (hs.congr ⟨rfl, rfl, rfl, rfl, rfl, rfl⟩) (.raise ..)
  · exact hs.congr ⟨rfl, rfl, rfl, rfl, rfl, rfl⟩

/-- Settles O41, by the cases of an instruction and of a step. -/
theorem framerInvKept : Obligations.FramerInvKept :=
  ⟨fun _ _ _ hs h => exec_framerInv hs h, fun _ _ hs h => step_framerInv hs h, fun _ => .of_idle rfl rfl⟩

end Sys2Proof.Machine
end

section
/-! SUPPORT and proofs for the framer's operations (spec 41_framer.md R123 to R125): each operation's effect by `fault`,
`fr_busy` and the count it finds. -/

namespace Sys2Proof

/-- Format F leaves no word with a bit of 23:19 set legal (R74, R78). -/
theorem decodeOp_reservedBits_of_begin_mask {w : OpWord} {r : OpRow} (hr : r ∈ opRows) (hmask : r.mask = 0xFFF80000#32)
    (hbits : r.bits.extractLsb' 19 5 = 0) (hmajor : majorOf w = majorOf r.bits) (hw : w.extractLsb' 19 5 ≠ 0) :
    decodeOp w = .error .reservedBits := by
  refine decodeOp_reservedBits hr hmajor fun hcovers => hw ?_
  rw [hmask] at hcovers
  obtain ⟨-, hreserved, -⟩ := (begin_row_fields_iff w r.bits).mp hcovers
  exact hreserved.trans hbits

/-- The word of FR.BEGIN as R123 writes it. -/
theorem formatF_eq_or (cmd : CommandId) (len : Half) :
    formatF 0x20#8 cmd len = 0x20000000#32 ||| cmd.number.zeroExtend 32 <<< 16 ||| len.zeroExtend 32 := by
  cases cmd <;> rfl

theorem opWord_frBegin (cmd : CommandId) (len : Half) :
    (Instr.frBegin cmd len).opWord = 0x20000000#32 ||| cmd.number.zeroExtend 32 <<< 16 ||| len.zeroExtend 32 :=
  formatF_eq_or cmd len

namespace Machine

variable {s : State}

/-! ### FR.BEGIN (R123) -/

theorem exec_frBegin_zero (cmd : CommandId) (hfault : s.fault = false) (hbusy : s.frBusy = false) :
    exec (.frBegin cmd 0) s = .next
      { s with
        egress := s.egress ++ header cmd 0 ++ footer Config.CRC_INIT, crc := Config.CRC_INIT, frCmd := cmd,
        frLen := 0, frRem := 0, frBusy := false, rsp := none } := by
  simp [exec, execFrBegin, hfault, hbusy, State.emit, State.crcInit]

theorem exec_frBegin_of_idle (cmd : CommandId) {len : Half} (hfault : s.fault = false) (hbusy : s.frBusy = false)
    (hlen : len ≠ 0) :
    exec (.frBegin cmd len) s = .next
      { s with
        egress := s.egress ++ header cmd len, crc := Config.CRC_INIT, frCmd := cmd, frLen := len, frRem := len,
        frBusy := true, rsp := none } := by
  simp only [exec, execFrBegin, State.gated_of_clear s _ hfault, hbusy, if_neg hlen]
  rfl

theorem exec_frBegin_of_busy (cmd : CommandId) (len : Half) (hfault : s.fault = false) (hbusy : s.frBusy = true) :
    exec (.frBegin cmd len) s = .next (s.faulted (.frBegin cmd len) .frameBusy) := by
  simp [exec, execFrBegin, hfault, hbusy, State.faulted]

/-! ### FR.DATA (R124) -/

/-- FR.DATA where the decremented `fr_rem` is zero: the footer follows and the frame closes. -/
theorem exec_frData_last (b : Byte) (hfault : s.fault = false) (hbusy : s.frBusy = true) (hrem : s.frRem - 1 = 0) :
    exec (.frData b) s = .next
      { s with
        egress := s.egress ++ [b] ++ footer (crcStep s.crc b), crc := crcStep s.crc b, frRem := 0, frBusy := false,
        rsp := none } := by
  simp only [exec, execFrData, State.gated_of_clear s _ hfault, if_pos hbusy, hrem, if_true]
  rfl

/-- FR.DATA where the decremented `fr_rem` is not zero: the frame stays open. -/
theorem exec_frData_more (b : Byte) (hfault : s.fault = false) (hbusy : s.frBusy = true) (hrem : s.frRem - 1 ≠ 0) :
    exec (.frData b) s = .next
      { s with egress := s.egress ++ [b], crc := crcStep s.crc b, frRem := s.frRem - 1, rsp := none } :=
  execFrData_of_frRem_sub_one_ne_zero b hfault hbusy hrem

theorem exec_frData_of_idle (b : Byte) (hfault : s.fault = false) (hbusy : s.frBusy = false) :
    exec (.frData b) s = .next (s.faulted (.frData b) .noFrame) := by
  simp [exec, execFrData, hfault, hbusy, State.faulted]

/-! ### FR.ABORT (R125) -/

theorem exec_frAbort_of_busy (hfault : s.fault = false) (hbusy : s.frBusy = true) :
    exec .frAbort s = .next { s with frBusy := false, frRem := 0, rsp := none } := by
  simp [exec, execFrAbort, hfault, hbusy]

theorem exec_frAbort_of_idle (hfault : s.fault = false) (hbusy : s.frBusy = false) :
    exec .frAbort s = .next { s with rsp := none } := by
  simp [exec, execFrAbort, hfault, hbusy, State.quiet]

/-! ### The statements -/

/-- Settles O21, by `fr_busy` and whether the declared length is 0; bits 23:19 of FR.BEGIN's word are reserved. -/
theorem frBeginResult : Obligations.FrBeginResult := by
  refine ⟨fun cmd len => congrArg Code.op (formatF_eq_or cmd len), fun w hmajor hw => ?_,
    fun cmd s hfault hbusy => ?_, fun cmd len s hfault hbusy hlen => exec_frBegin_of_idle cmd hfault hbusy hlen,
    fun cmd len s hfault hbusy => ?_⟩
  · exact decodeOp_reservedBits_of_begin_mask
      (r := ⟨0x20000000#32, 0xFFF80000#32, fun w => .frBegin (cmdOf w) (lenOf w)⟩)
      (by simp [opRows]) rfl (by decide) hmajor hw
  · rw [exec_frBegin_zero cmd hfault hbusy, List.append_assoc]
    rfl
  · rw [exec_frBegin_of_busy cmd len hfault hbusy, State.faulted, opWord_frBegin]

/-- Settles O22, by `fr_busy` and `fr_rem`; R28's invariant keeps the decrement from wrapping. -/
theorem frDataResult : Obligations.FrDataResult := by
  refine ⟨fun imm8 => rfl, fun w hmajor hw => ?_, fun imm8 s hfault hbusy hrem => ?_, fun imm8 s hfault hbusy hrem => ?_,
    fun imm8 s hfault hbusy => exec_frData_of_idle imm8 hfault hbusy, fun s hinv hbusy => ?_⟩
  · exact decodeOp_reservedBits_of_byte_mask (r := ⟨0x21000000#32, 0xFFFFFF00#32, fun w => .frData (imm8Of w)⟩)
      (by simp [opRows]) rfl (by decide) hmajor hw
  · have hmore : s.frRem - 1 ≠ 0 := fun hzero => by simp [sub_eq_zero.mp hzero] at hrem
    exact exec_frData_more imm8 hfault hbusy hmore
  · rw [exec_frData_last imm8 hfault hbusy (sub_eq_zero.mpr hrem), List.append_assoc]
    rfl
  · have ⟨_, hrange, _⟩ := hinv
    exact ⟨hinv.frRem_sub_one_toNat hbusy, (hrange hbusy).1⟩

/-- Settles O23, by `fr_busy`; FR.ABORT's word is the only one of its major opcode. -/
theorem frAbortResult : Obligations.FrAbortResult := by
  refine ⟨by decide, fun w hmajor hw => ?_, fun s hfault hbusy => exec_frAbort_of_busy hfault hbusy,
    fun s hfault hbusy => exec_frAbort_of_idle hfault hbusy⟩
  exact decodeOp_reservedBits_of_full_mask (r := ⟨0x22000000#32, 0xFFFFFFFF#32, fun _ => .frAbort⟩)
    (by simp [opRows]) rfl hmajor hw

end Machine

end Sys2Proof
end

section
/-! SUPPORT and proofs for what may happen around an open frame (spec 41_framer.md R128) and for the framer's blindness to
byte values (R129). -/

namespace Sys2Proof.Machine

variable {s t : State} {i : Instr}

/-! ### Frames never interleave (R128) -/

/-- R128: the operations of its list touch nothing of the framer, whether they execute, fault or are discarded. -/
theorem exec_sameFrame (hi : leavesFrameAlone i = true) (h : exec i s = .next t) : SameFrame s t := by
  obtain ⟨-, rfl⟩ | ⟨-, c, -, rfl⟩ | hexec := exec_cases h
  · exact ⟨rfl, rfl, rfl, rfl, rfl, rfl⟩
  · exact ⟨rfl, rfl, rfl, rfl, rfl, rfl⟩
  cases hexec with
  | srst | crcClr | crcUpd | frBeginEmpty | frBegin | frDataLast | frData | frAbort | frAbortIdle | serEmit => cases hi
  | _ => exact ⟨rfl, rfl, rfl, rfl, rfl, rfl⟩

/-- R128: with a frame open FR.DATA is the only operation whose execution appends. -/
theorem Executes.eq_frData_of_busy (h : Executes s i t) (hbusy : s.frBusy = true) (hegress : t.egress ≠ s.egress) :
    ∃ b, i = .frData b := by
  cases h with
  | frDataLast b | frData b => exact ⟨b, rfl⟩
  | frBeginEmpty _ _ hidle | frBegin _ _ _ hidle | serEmit _ hidle => simp [hbusy] at hidle
  | _ => exact absurd rfl hegress

theorem exec_serEmit_of_busy (hfault : s.fault = false) (hbusy : s.frBusy = true) :
    exec .serEmit s = .next (s.faulted .serEmit .frameBusy) := by
  simp [exec, execSerEmit, hfault, hbusy, State.faulted]

/-- Settles O36: a discard and a fault entry append nothing, and what executes with a frame open is no FR.BEGIN and no
SER.EMIT. -/
theorem framesNeverInterleave : Obligations.FramesNeverInterleave := by
  refine ⟨fun i s t hbusy h hegress => ?_, fun s hbusy hfault => ?_, fun i s t hi h => ?_⟩
  · obtain ⟨-, rfl⟩ | ⟨-, c, -, rfl⟩ | hexec := exec_cases h
    · exact absurd rfl hegress
    · exact absurd rfl hegress
    · exact hexec.eq_frData_of_busy hbusy hegress
  · exact ⟨fun cmd len => exec_frBegin_of_busy cmd len hfault hbusy, exec_serEmit_of_busy hfault hbusy⟩
  · obtain ⟨hcrc, hbusy, hcmd, hlen, hrem, hegress⟩ := exec_sameFrame hi h
    exact ⟨hcrc, hbusy, hcmd, hlen, hrem, hegress⟩

/-! ### The framer's control depends on no byte (R129) -/

/-- The elements that decide the framer's faults and sequencing. -/
structure FramerControl where
  fault : Bool
  faultCause : Cause
  frBusy : Bool
  frRem : Half

def State.framerControl (s : State) : FramerControl := ⟨s.fault, s.faultCause, s.frBusy, s.frRem⟩

theorem framerControl_eq_iff : s.framerControl = t.framerControl ↔
    s.fault = t.fault ∧ s.faultCause = t.faultCause ∧ s.frBusy = t.frBusy ∧ s.frRem = t.frRem := by
  simp [State.framerControl]

/-- What FR.BEGIN does to the control, from its length alone (R123). -/
def FramerControl.afterBegin (len : Half) (c : FramerControl) : FramerControl :=
  if c.fault then c
  else if c.frBusy then { c with fault := true, faultCause := .frameBusy }
  else { c with frRem := len, frBusy := decide (len ≠ 0) }

/-- What FR.DATA does to the control, whatever its byte (R124). -/
def FramerControl.afterData (c : FramerControl) : FramerControl :=
  if c.fault then c
  else if c.frBusy then { c with frRem := c.frRem - 1, frBusy := decide (c.frRem - 1 ≠ 0) }
  else { c with fault := true, faultCause := .noFrame }

theorem exec_frBegin_framerControl {cmd : CommandId} {len : Half} (h : exec (.frBegin cmd len) s = .next t) :
    t.framerControl = s.framerControl.afterBegin len := by
  obtain ⟨hf, rfl⟩ | ⟨hf, hb, rfl⟩ | ⟨hf, hb, rfl, rfl⟩ | ⟨hf, hb, hl, rfl⟩ := execFrBegin_cases h
  · simp [State.framerControl, FramerControl.afterBegin, hf]
  · simp [State.framerControl, FramerControl.afterBegin, hf, hb]
  · simp [State.framerControl, FramerControl.afterBegin, hf, hb]
  · simpa [State.framerControl, FramerControl.afterBegin, hf, hb] using hl

theorem exec_frData_framerControl {b : Byte} (h : exec (.frData b) s = .next t) :
    t.framerControl = s.framerControl.afterData := by
  obtain ⟨hf, rfl⟩ | ⟨hf, hb, rfl⟩ | ⟨hf, hb, hr, rfl⟩ | ⟨hf, hb, hr, rfl⟩ := execFrData_cases h
  · simp [State.framerControl, FramerControl.afterData, hf]
  · simp [State.framerControl, FramerControl.afterData, hf, hb]
  · simp [State.framerControl, FramerControl.afterData, hf, hb, sub_eq_zero.mp hr]
  · simpa [State.framerControl, FramerControl.afterData, hf, hb] using hr

/-- R123: no command and no length makes FR.BEGIN fault with the framer idle. -/
theorem exec_frBegin_accepts (cmd : CommandId) (len : Half) (hfault : s.fault = false) (hbusy : s.frBusy = false) :
    ∃ t, exec (.frBegin cmd len) s = .next t ∧ t.fault = false := by
  by_cases hlen : len = 0
  · subst hlen
    exact ⟨_, exec_frBegin_zero cmd hfault hbusy, hfault⟩
  · exact ⟨_, exec_frBegin_of_idle cmd hfault hbusy hlen, hfault⟩

/-- R124: no byte makes FR.DATA fault with a frame open. -/
theorem exec_frData_accepts (b : Byte) (hfault : s.fault = false) (hbusy : s.frBusy = true) :
    ∃ t, exec (.frData b) s = .next t ∧ t.fault = false := by
  by_cases hrem : s.frRem - 1 = 0
  · exact ⟨_, exec_frData_last b hfault hbusy hrem, hfault⟩
  · exact ⟨_, exec_frData_more b hfault hbusy hrem, hfault⟩

/-- Settles O39: FR.BEGIN and FR.DATA act on the control as functions of the control and the declared length. -/
theorem framerFaultsIgnoreBytes : Obligations.FramerFaultsIgnoreBytes := by
  refine ⟨fun b b' s s' t t' hf hc hb hr h h' => ?_, fun c c' len s s' t t' hf hc hb hr h h' => ?_,
    fun c len s hfault hbusy => exec_frBegin_accepts c len hfault hbusy,
    fun b s hfault hbusy => exec_frData_accepts b hfault hbusy⟩
  · refine framerControl_eq_iff.mp ?_
    rw [exec_frData_framerControl h, exec_frData_framerControl h', framerControl_eq_iff.mpr ⟨hf, hc, hb, hr⟩]
  · refine framerControl_eq_iff.mp ?_
    rw [exec_frBegin_framerControl h, exec_frBegin_framerControl h', framerControl_eq_iff.mpr ⟨hf, hc, hb, hr⟩]

end Sys2Proof.Machine
end

section
/-! SUPPORT and proof for a reader of emitted frames (spec 41_framer.md R121, R127; 30_encoding.md R81): it puts the length
together again from its two bytes, so it finds where the frame ends. -/

namespace Sys2Proof.Machine

variable {cmd : CommandId} {p : List Byte}

/-- The little-endian length bytes read back as the length (R121). -/
theorem append_length_bytes (len : Half) : (len.extractLsb' 8 8 ++ len.extractLsb' 0 8 : Half) = len :=
  (BitVec.extractLsb'_append_extractLsb'_eq_extractLsb' (w := 16) rfl).trans BitVec.extractLsb'_eq_self

theorem frameLength_header (cmd : CommandId) (len : Half) (bs : List Byte) :
    frameLength (header cmd len ++ bs) = some (len.toNat + 8) := by
  calc frameLength (header cmd len ++ bs)
      = some ((len.extractLsb' 8 8 ++ len.extractLsb' 0 8 : Half).toNat + 8) := rfl
    _ = some (len.toNat + 8) := by rw [append_length_bytes]

theorem frameCommand_header (cmd : CommandId) (len : Half) (bs : List Byte) :
    frameCommand (header cmd len ++ bs) = some cmd :=
  commandOfOpcode_OPC cmd

theorem encodeFrame_append (cmd : CommandId) (p rest : List Byte) :
    encodeFrame cmd p ++ rest = header cmd (BitVec.ofNat 16 p.length) ++ (p ++ footer (checksum p) ++ rest) := by
  simp only [encodeFrame, List.append_assoc]

/-- A payload that R15's `MAX_LEN` allows has its length in 16 bits. -/
theorem ofNat_length_toNat (h : p.length ≤ 65535) : (BitVec.ofNat 16 p.length).toNat = p.length :=
  (BitVec.toNat_ofNat _ _).trans (Nat.mod_eq_of_lt (by omega))

theorem frameLength_encodeFrame (cmd : CommandId) (rest : List Byte) (h : p.length ≤ 65535) :
    frameLength (encodeFrame cmd p ++ rest) = some (p.length + 8) := by
  rw [encodeFrame_append, frameLength_header, ofNat_length_toNat h]

theorem nextFrame_encodeFrame (cmd : CommandId) (rest : List Byte) (h : p.length ≤ 65535) :
    nextFrame (encodeFrame cmd p ++ rest) = some (encodeFrame cmd p, rest) := by
  have hlen := encodeFrame_length cmd p
  unfold nextFrame
  rw [frameLength_encodeFrame cmd rest h, ← hlen]
  simp

/-- Settles O51: the header holds the length and the command, and the length gives the split. -/
theorem readerFindsTheFrame : Obligations.ReaderFindsTheFrame := by
  intro cmd p rest h
  refine ⟨encodeFrame_length cmd p, frameLength_encodeFrame cmd rest h, nextFrame_encodeFrame cmd rest h, ?_⟩
  rw [encodeFrame_append, frameCommand_header]

end Sys2Proof.Machine
end

section
/-! SUPPORT and proofs for whole frames (spec 41_framer.md R126): FR.BEGIN and the FR.DATA of a payload append the encoded
frame, and the operations of R128's list in between leave the run in step with the plain one. -/

namespace Sys2Proof.Machine

variable {s s' t t' u : State} {i : Instr} {is js : List Instr} {b : Byte} {p : List Byte}
  {parts : List (List Instr × Byte)}

/-! ### Without operations in between -/

theorem ofNat_succ_sub_one (n : Nat) : BitVec.ofNat 16 (n + 1) - 1 = BitVec.ofNat 16 n := by
  rw [← BitVec.ofNat_add_ofNat]
  exact add_sub_cancel_right _ _

/-- A payload that has a byte does not declare the length 0. -/
theorem ofNat_length_cons_ne_zero (h : p.length < 65535) : BitVec.ofNat 16 (b :: p).length ≠ 0 := by
  intro hzero
  have hlen : (BitVec.ofNat 16 (b :: p).length).toNat = p.length + 1 := ofNat_length_toNat h
  rw [hzero] at hlen
  exact absurd hlen (Nat.succ_ne_zero _).symm

/-- The FR.DATA of every byte an open frame expects append those bytes and the footer, and close the frame (R124). -/
theorem execAll_frData (hfault : s.fault = false) (hbusy : s.frBusy = true) (hlen : p.length < 65535)
    (hrem : s.frRem = BitVec.ofNat 16 (b :: p).length) :
    execAll ((b :: p).map .frData) s = .next
      { s with
        egress := s.egress ++ (b :: p) ++ footer (checksumFrom s.crc (b :: p)), crc := checksumFrom s.crc (b :: p),
        frRem := 0, frBusy := false, rsp := none } := by
  induction p generalizing s b with
  | nil => exact execAll_cons_of_next (exec_frData_last b hfault hbusy (sub_eq_zero.mpr hrem))
  | cons c p ih =>
    have hp : p.length < 65535 := Nat.lt_of_succ_lt hlen
    have hsub : s.frRem - 1 = BitVec.ofNat 16 (c :: p).length := by rw [hrem, List.length_cons, ofNat_succ_sub_one]
    have hmore : s.frRem - 1 ≠ 0 := hsub ▸ ofNat_length_cons_ne_zero hp
    rw [List.map_cons, execAll_cons_of_next (exec_frData_more b hfault hbusy hmore),
      ih (hfault := by exact hfault) (hbusy := by exact hbusy) (hlen := hp) (hrem := by exact hsub)]
    simp only [checksumFrom_cons, List.append_assoc, List.singleton_append]

/-- Settles O45: FR.BEGIN starts the checksum at `CRC_INIT` and declares the length that FR.DATA counts down. -/
theorem frameEquivalence : Obligations.FrameEquivalence := by
  intro cmd p s hfault hbusy hlen
  cases p with
  | nil =>
    refine (execAll_cons_of_next (exec_frBegin_zero cmd hfault hbusy)).trans ?_
    simp [execAll, encodeFrame, checksum_eq]
  | cons b p =>
    have hp : p.length < 65535 := hlen
    rw [execAll_cons_of_next (exec_frBegin_of_idle cmd hfault hbusy (ofNat_length_cons_ne_zero hp))]
    rw [execAll_frData (hfault := by exact hfault) (hbusy := by rfl) (hlen := hp) (hrem := by rfl)]
    simp only [encodeFrame, checksum_eq, List.append_assoc]

/-! ### Runs without SRST keep a fault (R205, R207) -/

theorem exec_fault_of_fault (hi : i ≠ .srst) (h : exec i s = .next t) (hs : s.fault = true) : t.fault = true := by
  obtain ⟨-, rfl⟩ | ⟨-, c, -, rfl⟩ | hexec := exec_cases h
  · exact hs
  · rfl
  · obtain ⟨hsrst, -⟩ | ⟨hkept, -, -⟩ := hexec.faultRecord
    · exact absurd hsrst hi
    · exact hkept.trans hs

theorem execAll_cons_eq_next_iff : execAll (i :: is) s = .next u ↔ ∃ t, exec i s = .next t ∧ execAll is t = .next u := by
  cases h : exec i s <;> simp [execAll, h]

theorem execAll_append_eq_next_iff :
    execAll (is ++ js) s = .next u ↔ ∃ t, execAll is s = .next t ∧ execAll js t = .next u := by
  induction is generalizing s with
  | nil => simp [execAll]
  | cons i is ih =>
    simp only [List.cons_append, execAll_cons_eq_next_iff, ih]
    exact ⟨fun ⟨t, h, v, h', h''⟩ => ⟨v, ⟨t, h, h'⟩, h''⟩, fun ⟨v, ⟨t, h, h'⟩, h''⟩ => ⟨t, h, v, h', h''⟩⟩

/-- A fault anywhere in a run without SRST is there at its end, so a safe run starts without one (R208). -/
theorem SafeRun.fault_eq_false (hsrst : .srst ∉ is) (h : SafeRun is s t) : s.fault = false := by
  obtain ⟨hrun, ht⟩ := h
  induction is generalizing s with
  | nil =>
    cases hrun
    exact ht
  | cons i is ih =>
    obtain ⟨hi, his⟩ : .srst ≠ i ∧ .srst ∉ is := not_or.mp (mt List.mem_cons.mpr hsrst)
    obtain ⟨u, hexec, hrest⟩ := execAll_cons_eq_next_iff.mp hrun
    have hu : u.fault = false := ih his hrest
    exact Bool.eq_false_iff.mpr fun hs => by simp [exec_fault_of_fault hi.symm hexec hs] at hu

/-- A safe run goes through its first instruction without a fault. -/
theorem SafeRun.cons (hsrst : .srst ∉ is) (h : SafeRun (i :: is) s u) :
    ∃ t, exec i s = .next t ∧ t.fault = false ∧ SafeRun is t u := by
  obtain ⟨hrun, hu⟩ := h
  obtain ⟨t, hexec, hrest⟩ := execAll_cons_eq_next_iff.mp hrun
  exact ⟨t, hexec, SafeRun.fault_eq_false hsrst ⟨hrest, hu⟩, hrest, hu⟩

/-! ### With operations in between (R128) -/

/-- R128's operations, any number of them, leave the framer alone. -/
theorem execAll_sameFrame (his : ∀ i ∈ is, leavesFrameAlone i = true) (h : execAll is s = .next t) : SameFrame s t := by
  induction is generalizing s with
  | nil =>
    cases h
    exact .refl _
  | cons i is ih =>
    obtain ⟨hi, his⟩ := List.forall_mem_cons.mp his
    obtain ⟨u, hexec, hrest⟩ := execAll_cons_eq_next_iff.mp h
    exact (exec_sameFrame hi hexec).trans (ih his hrest)

theorem exec_frData_of_safe (h : exec (.frData b) s = .next t) (ht : t.fault = false) :
    s.fault = false ∧ s.frBusy = true := by
  obtain ⟨hf, rfl⟩ | ⟨-, -, rfl⟩ | ⟨hf, hb, -⟩ | ⟨hf, hb, -⟩ := execFrData_cases h
  · simp [hf] at ht
  · simp at ht
  · exact ⟨hf, hb⟩
  · exact ⟨hf, hb⟩

/-- FR.DATA of one byte keeps two framers that agree in agreement (R124). -/
theorem exec_frData_sameFrame (hsame : SameFrame s s') (h : exec (.frData b) s = .next t) (ht : t.fault = false)
    (h' : exec (.frData b) s' = .next t') (ht' : t'.fault = false) : SameFrame t t' := by
  obtain ⟨hf, hb⟩ := exec_frData_of_safe h ht
  obtain ⟨hf', hb'⟩ := exec_frData_of_safe h' ht'
  obtain ⟨hcrc, -, hcmd, hlen, hrem, hegress⟩ := hsame
  by_cases hlast : s.frRem - 1 = 0
  · rw [exec_frData_last b hf hb hlast] at h
    rw [exec_frData_last b hf' hb' (hrem ▸ hlast), hcrc, hegress] at h'
    cases h
    cases h'
    exact ⟨rfl, rfl, hcmd, hlen, rfl, rfl⟩
  · rw [exec_frData_more b hf hb hlast] at h
    rw [exec_frData_more b hf' hb' (hrem ▸ hlast), hcrc, hegress, hrem] at h'
    cases h
    cases h'
    exact ⟨rfl, hb'.trans hb.symm, hcmd, hlen, rfl, rfl⟩

theorem weave_cons (mk : Byte → Instr) (ops : List Instr) (b : Byte) (parts : List (List Instr × Byte)) :
    weave mk ((ops, b) :: parts) = ops ++ mk b :: weave mk parts := by
  simp [weave]

/-- R128's list has no SRST, and neither has a run of its operations and FR.DATA. -/
theorem srst_notMem_weave_frData (hops : ∀ part ∈ parts, ∀ i ∈ part.1, leavesFrameAlone i = true) :
    .srst ∉ weave .frData parts := by
  intro hmem
  obtain ⟨part, hpart, hi⟩ := List.mem_flatMap.mp hmem
  obtain hi | hi := List.mem_append.mp hi
  · cases hops part hpart _ hi
  · cases List.mem_singleton.mp hi

theorem srst_notMem_map_frData (p : List Byte) : Instr.srst ∉ p.map .frData := by
  simp

/-- The interleaved run stays in step with the plain one: the operations in between move only what R128 lets them. -/
theorem weave_sameFrame (hops : ∀ part ∈ parts, ∀ i ∈ part.1, leavesFrameAlone i = true) (hsame : SameFrame s s')
    (h : SafeRun (weave .frData parts) s t) (h' : SafeRun ((parts.map Prod.snd).map .frData) s' t') :
    SameFrame t t' := by
  induction parts generalizing s s' with
  | nil =>
    obtain ⟨⟨⟩, -⟩ := h
    obtain ⟨⟨⟩, -⟩ := h'
    exact hsame
  | cons part parts ih =>
    obtain ⟨ops, b⟩ := part
    obtain ⟨hpart, hparts⟩ := List.forall_mem_cons.mp hops
    rw [weave_cons] at h
    obtain ⟨hrun, ht⟩ := h
    obtain ⟨u, hbetween, hrest⟩ := execAll_append_eq_next_iff.mp hrun
    obtain ⟨v, hexec, hv, hsafe⟩ := SafeRun.cons (srst_notMem_weave_frData hparts) ⟨hrest, ht⟩
    obtain ⟨v', hexec', hv', hsafe'⟩ := SafeRun.cons (srst_notMem_map_frData (parts.map Prod.snd)) h'
    have hbefore : SameFrame u s' := (execAll_sameFrame hpart hbetween).symm.trans hsame
    exact ih hparts (exec_frData_sameFrame hbefore hexec hv hexec' hv') hsafe hsafe'

/-- Settles O46: FR.BEGIN leads both runs to the same state, from where the interleaved one stays in step with the plain
one, whose bytes O45 gives. -/
theorem frameEquivalenceInterleaved : Obligations.FrameEquivalenceInterleaved := by
  intro cmd parts s t hfault hbusy hlen hops h
  have hplain := frameEquivalence cmd (parts.map Prod.snd) s hfault hbusy (by rwa [List.length_map])
  rw [List.length_map] at hplain
  obtain ⟨u, hbegin, -, hsafe⟩ := h.cons (srst_notMem_weave_frData hops)
  rw [execAll_cons_of_next hbegin] at hplain
  have hsame := weave_sameFrame hops (.refl u) hsafe ⟨hplain, hfault⟩
  exact ⟨hsame.egress.symm, hsame.frBusy.symm, hsame.crc.symm⟩

end Sys2Proof.Machine
end

section
/-! SUPPORT and proofs for pixels and packed rows (spec 42_serializer.md R150, R155, R158): a row is its 384 dots, and the
dots of `pack(q)` are the dark pixels of `q`. -/

namespace Sys2Proof.Machine

variable {row row' : Vector Byte Config.ROW_BYTES} {q : List Byte} {i k b : Nat}

/-! ### A row is its dots (10_state.md R30) -/

theorem div_eight_lt_ROW_BYTES (hi : i < 384) : i / 8 < Config.ROW_BYTES :=
  Nat.div_lt_of_lt_mul hi

theorem getLsbD_row_eq_dotOf (hk : k < Config.ROW_BYTES) (hb : b < 8) :
    row[k].getLsbD b = dotOf row (8 * k + (7 - b)) := by
  have hbyte : (8 * k + (7 - b)) / 8 = k := by omega
  have hbit : 7 - (8 * k + (7 - b)) % 8 = b := by omega
  rw [dotOf_eq row _ (hbyte.symm ▸ hk)]
  simp only [hbyte, hbit]

theorem row_ext (h : ∀ i < 384, dotOf row i = dotOf row' i) : row = row' := by
  refine Vector.ext fun k hk => BitVec.eq_of_getLsbD_eq fun b hb => ?_
  rw [getLsbD_row_eq_dotOf hk hb, getLsbD_row_eq_dotOf hk hb]
  have hk48 : k < 48 := hk
  exact h _ (by omega)

/-! ### Pixels (R150) -/

theorem isDark_eq_decide (p : Byte) : isDark p = decide (p.toNat < 127) := rfl

/-- Settles O24: `THRESHOLD` is 127. -/
theorem pixelDarkness : Obligations.PixelDarkness := by
  intro pixel
  rw [isDark_eq_decide, decide_eq_true_iff, Nat.lt_succ_iff]

theorem dotOfPixels_of_lt (h : i < q.length) : dotOfPixels q i = decide (q[i].toNat < 127) := by
  simp [dotOfPixels, h, isDark_eq_decide]

theorem dotOfPixels_of_ge (h : q.length ≤ i) : dotOfPixels q i = false := by
  simp [dotOfPixels, h]

theorem dotOfPixels_eq_true_iff : dotOfPixels q i = true ↔ ∃ h : i < q.length, q[i].toNat < 127 := by
  by_cases h : i < q.length
  · simp [dotOfPixels_of_lt h, h]
  · simp [dotOfPixels_of_ge (Nat.le_of_not_lt h), h]

/-- One more pixel sets the dot after those of the pixels before it. -/
theorem dotOfPixels_concat (q : List Byte) (p : Byte) (i : Nat) :
    dotOfPixels (q ++ [p]) i = if i = q.length then isDark p else dotOfPixels q i := by
  obtain hi | rfl | hi := Nat.lt_trichotomy i q.length
  · simp [dotOfPixels, List.getElem?_append_left hi, hi.ne]
  · simp [dotOfPixels]
  · have hlen : (q ++ [p]).length ≤ i := by simpa using hi
    rw [dotOfPixels_of_ge hlen, dotOfPixels_of_ge hi.le, if_neg hi.ne']

/-! ### Packed rows (R155) -/

theorem getLsbD_pack (q : List Byte) (hk : k < Config.ROW_BYTES) (hb : b < 8) :
    (pack q)[k].getLsbD b = dotOfPixels q (8 * k + (7 - b)) := by
  simp [pack, hb]

theorem dotOf_pack (q : List Byte) (hi : i < 384) : dotOf (pack q) i = dotOfPixels q i := by
  have hdot : 8 * (i / 8) + (7 - (7 - i % 8)) = i := by omega
  rw [dotOf_eq _ _ (div_eight_lt_ROW_BYTES hi), getLsbD_pack q _ (by omega), hdot]

theorem pack_nil : pack [] = Vector.replicate Config.ROW_BYTES 0x00 :=
  row_ext fun i hi => by rw [dotOf_pack [] hi, dotOf_clear, dotOfPixels_of_ge (Nat.zero_le i)]

/-- Settles O49: the dots of the packed row are the dark pixels, and the bits of its bytes are its dots. -/
theorem packBits : Obligations.PackBits := by
  intro q hlen
  refine ⟨fun k hk b hb => ?_, fun i hi => ?_, fun i hi hrow => ?_⟩
  · rw [getLsbD_pack q hk (Nat.lt_succ_of_le hb), dotOfPixels_eq_true_iff]
  · rw [dotOf_pack q (hi.trans_le hlen), dotOfPixels_of_lt hi]
  · rw [dotOf_pack q hrow, dotOfPixels_of_ge hi]

/-! ### All white, all black, one dark pixel (R158) -/

theorem dotOf_black (hi : i < 384) : dotOf (Vector.replicate Config.ROW_BYTES 0xFF) i = true := by
  have hbits : ∀ b < 8, (0xFF#8).getLsbD b = true := by decide
  rw [dotOf_eq _ _ (div_eight_lt_ROW_BYTES hi), Vector.getElem_replicate]
  exact hbits _ (by omega)

/-- A row packs to `row` when its pixels are dark where `row` has a dot. -/
theorem pack_eq_of_dots (hlen : q.length = 384)
    (h : ∀ (i : Nat) (hi : i < q.length), q[i].toNat < 127 ↔ dotOf row i = true) : pack q = row := by
  refine row_ext fun i hi => ?_
  have hi : i < q.length := hlen ▸ hi
  rw [dotOf_pack q (hlen ▸ hi), dotOfPixels_of_lt hi, Bool.eq_iff_iff, decide_eq_true_iff, h i hi]

/-- One dark pixel packs to the clear row with that one dot set. -/
theorem pack_eq_of_one_dark (hlen : q.length = 384) (hk : k / 8 < Config.ROW_BYTES)
    (h : ∀ (i : Nat) (hi : i < q.length), q[i].toNat < 127 ↔ i = k) :
    pack q = (State.reset.putDot k hk true).row := by
  refine pack_eq_of_dots hlen fun i hi => ?_
  have hclear : dotOf State.reset.row i = false := dotOf_clear i
  rw [h i hi, State.dotOf_putDot, hclear]
  simp

/-- Settles O50, each row by its dots. -/
theorem packProperties : Obligations.PackProperties := by
  intro q hlen
  refine ⟨fun hlight => ?_, fun hdark => ?_, fun hfirst => ?_, fun hlast => ?_⟩
  · have hpack : pack q = Vector.replicate Config.ROW_BYTES 0x00 := pack_eq_of_dots hlen fun i hi => by
      rw [dotOf_clear]
      simpa using hlight _ (List.getElem_mem hi)
    rw [hpack]
    rfl
  · have hpack : pack q = Vector.replicate Config.ROW_BYTES 0xFF := pack_eq_of_dots hlen fun i hi =>
      iff_of_true (hdark _ (List.getElem_mem hi)) (dotOf_black (hlen ▸ hi))
    rw [hpack]
    rfl
  · rw [pack_eq_of_one_dark hlen (k := 0) (by decide) hfirst]
    rfl
  · rw [pack_eq_of_one_dark hlen (k := 383) (by decide) hlast]
    rfl

end Sys2Proof.Machine
end

section
/-! SUPPORT and proofs for the serializer's operations (spec 42_serializer.md R151 to R153): each operation's effect by
`fault`, `fr_busy` and `ser_idx`, and the row dot by dot. -/

namespace Sys2Proof.Machine

variable {s : State}

/-! ### SER.CLR (R151) -/

theorem exec_serClr (hfault : s.fault = false) :
    exec .serClr s = .next { s with row := Vector.replicate Config.ROW_BYTES 0x00, serIdx := 0, rsp := none } :=
  s.gated_of_clear _ hfault

/-- Settles O25, by `fault` alone; SER.CLR's word is the only one of its major opcode. -/
theorem serClrResult : Obligations.SerClrResult := by
  refine ⟨by decide, fun w hmajor hw => ?_, fun s hfault => exec_serClr hfault⟩
  exact decodeOp_reservedBits_of_full_mask (r := ⟨0x30000000#32, 0xFFFFFFFF#32, fun _ => .serClr⟩)
    (by simp [opRows]) rfl hmajor hw

/-! ### SER.PIX (R152) -/

/-- SER.PIX on a row that is not full writes the next dot. -/
theorem exec_serPix_of_lt (p : Byte) (hfault : s.fault = false) (hidx : s.serIdx.toNat < 384) :
    exec (.serPix p) s = .next
      { s with
        row := (s.putDot s.serIdx.toNat (div_eight_lt_ROW_BYTES hidx) (isDark p)).row, serIdx := s.serIdx + 1,
        rsp := none } := by
  have hfull : s.serIdx.toNat ≠ Config.HRES := hidx.ne
  calc exec (.serPix p) s
      = execSerPix p s := rfl
    _ = _ := by
        unfold execSerPix
        rw [State.gated_of_clear s _ hfault, if_neg hfull, dif_pos (div_eight_lt_ROW_BYTES hidx)]
        rfl

theorem exec_serPix_of_full (p : Byte) (hfault : s.fault = false) (hidx : s.serIdx.toNat = 384) :
    exec (.serPix p) s = .next (s.faulted (.serPix p) .pixelOverflow) := by
  have hfull : s.serIdx.toNat = Config.HRES := hidx
  simp [exec, execSerPix, hfault, hfull, State.faulted]

/-- The `u9` index of a dot within the row moves on without wrapping (10_state.md R29). -/
theorem serIdx_add_one_toNat (hidx : s.serIdx.toNat < 384) : (s.serIdx + 1).toNat = s.serIdx.toNat + 1 := by
  rw [BitVec.toNat_add]
  exact Nat.mod_eq_of_lt (by simp; omega)

/-- Writing dot `i` assigns bit `7 - (i mod 8)` of byte `i div 8` and no other bit of the row. -/
theorem State.getLsbD_putDot {i k b : Nat} (hi : i / 8 < Config.ROW_BYTES) (v : Bool) (s : State)
    (hk : k < Config.ROW_BYTES) (hb : b < 8) :
    (s.putDot i hi v).row[k].getLsbD b = if k = i / 8 ∧ b = 7 - i % 8 then v else s.row[k].getLsbD b := by
  have hdot : 8 * k + (7 - b) = i ↔ k = i / 8 ∧ b = 7 - i % 8 := by omega
  rw [getLsbD_row_eq_dotOf hk hb, getLsbD_row_eq_dotOf hk hb, State.dotOf_putDot]
  simp only [hdot]

/-- Where the dot is 0 already, writing a light pixel leaves the row as it is. -/
theorem State.putDot_false_row {i : Nat} (hi : i / 8 < Config.ROW_BYTES) (hdot : dotOf s.row i = false) :
    (s.putDot i hi false).row = s.row := by
  refine row_ext fun j _ => ?_
  rw [State.dotOf_putDot]
  split
  next h => rw [h, hdot]
  next => rfl

/-- Settles O26, by whether `ser_idx` has reached `HRES`; bits 23:8 of SER.PIX's word are reserved. -/
theorem serPixResult : Obligations.SerPixResult := by
  refine ⟨fun imm8 => rfl, fun w hmajor hw => ?_, fun imm8 s hfault hidx => ?_,
    fun imm8 s hfault hidx => exec_serPix_of_full imm8 hfault hidx, fun imm8 s hfault hinv hidx hlight => ?_⟩
  · exact decodeOp_reservedBits_of_byte_mask (r := ⟨0x31000000#32, 0xFFFFFF00#32, fun w => .serPix (imm8Of w)⟩)
      (by simp [opRows]) rfl (by decide) hmajor hw
  · exact ⟨_, exec_serPix_of_lt imm8 hfault hidx, serIdx_add_one_toNat hidx,
      fun k hk b hb => State.getLsbD_putDot (div_eight_lt_ROW_BYTES hidx) (isDark imm8) s hk hb⟩
  · obtain ⟨-, hwhite⟩ := hinv
    have hpixel : isDark imm8 = false := decide_eq_false (Nat.not_lt.mpr hlight)
    rw [exec_serPix_of_lt imm8 hfault hidx, hpixel, State.putDot_false_row _ (hwhite _ le_rfl hidx)]

/-! ### SER.EMIT (R153) -/

theorem exec_serEmit_of_idle (hfault : s.fault = false) (hbusy : s.frBusy = false) :
    exec .serEmit s = .next
      { s with
        egress := s.egress ++ encodeFrame .bitmapData s.row.toList, crc := checksum s.row.toList,
        frCmd := .bitmapData, frLen := 48, frRem := 0, row := Vector.replicate Config.ROW_BYTES 0x00, serIdx := 0,
        rsp := none } := by
  have hnext : execSerEmit s = .next _ := (s.gated_of_clear _ hfault).trans (if_neg (Bool.eq_false_iff.mp hbusy))
  obtain ⟨hf, -⟩ | ⟨-, hb, -⟩ | ⟨-, -, ht⟩ := execSerEmit_cases hnext
  · simp [hfault] at hf
  · simp [hbusy] at hb
  · exact hnext.trans (congrArg Host.Outcome.next ht)

/-- The 48 bytes of a row declare the length 48, little-endian. -/
theorem encodeFrame_row (row : Vector Byte Config.ROW_BYTES) :
    encodeFrame .bitmapData row.toList =
      [0x51, 0x78, 0xA2, 0x00, 0x30, 0x00] ++ row.toList ++ [checksum row.toList, 0xFF] := by
  rw [encodeFrame, Vector.length_toList]
  rfl

/-- R31's invariant before the first pixel: no dot is set. -/
theorem SerializerInv.row_clear (hs : SerializerInv s) (hidx : s.serIdx = 0) :
    s.row = Vector.replicate Config.ROW_BYTES 0x00 := by
  obtain ⟨-, hwhite⟩ := hs
  refine row_ext fun i hi => ?_
  rw [dotOf_clear]
  exact hwhite i (by simp [hidx]) hi

/-- The zero law of 40_crc.md R106 on a clear row. -/
theorem checksum_clear_row : checksum (Vector.replicate Config.ROW_BYTES 0x00).toList = 0x00 := by
  rw [Vector.toList_replicate]
  exact checksumFromWith_zeros Config.T (by decide) Config.ROW_BYTES

/-- Settles O28, by `fr_busy`; SER.EMIT's word is the only one of its major opcode. -/
theorem serEmitResult : Obligations.SerEmitResult := by
  refine ⟨by decide, fun w hmajor hw => ?_, fun s hfault hbusy => ?_,
    fun s hfault hbusy => exec_serEmit_of_busy hfault hbusy, fun s hinv hidx => ?_⟩
  · exact decodeOp_reservedBits_of_full_mask (r := ⟨0x32000000#32, 0xFFFFFFFF#32, fun _ => .serEmit⟩)
      (by simp [opRows]) rfl hmajor hw
  · rw [exec_serEmit_of_idle hfault hbusy, encodeFrame_row]
    simp only [List.append_assoc]
  · have hclear := hinv.row_clear hidx
    exact ⟨hclear, hclear ▸ checksum_clear_row⟩

end Sys2Proof.Machine
end

section
/-! SUPPORT and proofs for whole rows (spec 42_serializer.md R154): from a cleared row the SER.PIX operations build the packed
row of the pixels so far, SER.EMIT sends it, and the operations that leave the row alone change nothing of this. -/

namespace Sys2Proof.Machine

variable {s t : State} {i : Instr} {is : List Instr} {out p q : List Byte} {b : Byte}
  {parts : List (List Instr × Byte)}

/-! ### One pixel more -/

/-- The state has emitted `out` and its row buffer holds the pixels `q`, packed. -/
structure HoldsPixels (out q : List Byte) (s : State) : Prop where
  egress : s.egress = out
  row : s.row = pack q
  serIdx : s.serIdx = BitVec.ofNat 9 q.length

theorem ofNat_pixels_toNat (hlen : q.length < 384) : (BitVec.ofNat 9 q.length).toNat = q.length :=
  (BitVec.toNat_ofNat _ _).trans (Nat.mod_eq_of_lt (by omega))

/-- The dot after the pixels `q`, set as one more pixel says, packs that pixel too. -/
theorem State.putDot_pack (hrow : s.row = pack q) (hi : q.length / 8 < Config.ROW_BYTES) (b : Byte) :
    (s.putDot q.length hi (isDark b)).row = pack (q ++ [b]) := by
  refine row_ext fun j hj => ?_
  rw [State.dotOf_putDot, hrow, dotOf_pack q hj, dotOf_pack (q ++ [b]) hj, dotOfPixels_concat]

theorem exec_serPix_of_pixels (b : Byte) (hfault : s.fault = false) (hrow : s.row = pack q)
    (hidx : s.serIdx = BitVec.ofNat 9 q.length) (hlen : q.length < 384) :
    exec (.serPix b) s = .next
      { s with row := pack (q ++ [b]), serIdx := BitVec.ofNat 9 (q ++ [b]).length, rsp := none } := by
  have hnat : s.serIdx.toNat = q.length := hidx ▸ ofNat_pixels_toNat hlen
  have hnext : s.serIdx + 1 = BitVec.ofNat 9 (q ++ [b]).length := by
    rw [hidx, List.length_append]
    exact BitVec.ofNat_add_ofNat ..
  rw [exec_serPix_of_lt b hfault (hnat ▸ hlen), hnext]
  simp only [hnat, State.putDot_pack hrow]

/-! ### Without operations in between -/

/-- The SER.PIX of each pixel in turn, on a row that holds the pixels `p`. -/
theorem execAll_serPix (hfault : s.fault = false) (hrsp : s.rsp = none) (hrow : s.row = pack p)
    (hidx : s.serIdx = BitVec.ofNat 9 p.length) (hlen : (p ++ q).length ≤ 384) :
    execAll (q.map .serPix) s = .next
      { s with row := pack (p ++ q), serIdx := BitVec.ofNat 9 (p ++ q).length } := by
  induction q generalizing s p with
  | nil => simp [execAll, ← hrow, ← hidx]
  | cons b q ih =>
    have hp : p.length < 384 := by
      rw [List.length_append, List.length_cons] at hlen
      omega
    rw [List.append_cons] at hlen ⊢
    rw [List.map_cons, execAll_cons_of_next (exec_serPix_of_pixels b hfault hrow hidx hp), hrsp]
    exact ih (s := { s with row := _, serIdx := _, rsp := none }) hfault rfl rfl rfl hlen

/-- Settles O47: SER.CLR leaves the packed row of no pixels, SER.PIX adds each pixel, and SER.EMIT sends the row. -/
theorem rowEquivalence : Obligations.RowEquivalence := by
  intro q s hfault hbusy hlen
  refine ⟨by rw [encodeFrame_length, Vector.length_toList]; rfl, ?_⟩
  rw [execAll_cons_of_next (exec_serClr hfault), ← pack_nil, execAll_append_eq_next_iff]
  exact ⟨_, execAll_serPix (p := []) hfault rfl rfl rfl hlen, execAll_cons_of_next (exec_serEmit_of_idle hfault hbusy)⟩

/-! ### With operations in between (log entry 17) -/

/-- An operation of the list touches neither the egress stream nor the serializer, whether it executes, faults or is
discarded. -/
theorem HoldsPixels.of_exec (hs : HoldsPixels out q s) (hi : leavesRowAlone i = true)
    (h : exec i s = .next t) : HoldsPixels out q t := by
  obtain ⟨-, rfl⟩ | ⟨-, c, -, rfl⟩ | hexec := exec_cases h
  · exact ⟨hs.egress, hs.row, hs.serIdx⟩
  · exact ⟨hs.egress, hs.row, hs.serIdx⟩
  cases hexec with
  | srst | frBeginEmpty | frBegin | frDataLast | frData | serClr | serPix | serEmit => cases hi
  | _ => exact ⟨hs.egress, hs.row, hs.serIdx⟩

theorem HoldsPixels.of_execAll (hs : HoldsPixels out q s) (his : ∀ i ∈ is, leavesRowAlone i = true)
    (h : execAll is s = .next t) : HoldsPixels out q t := by
  induction is generalizing s with
  | nil =>
    cases h
    exact hs
  | cons i is ih =>
    obtain ⟨hi, his⟩ := List.forall_mem_cons.mp his
    obtain ⟨u, hexec, hrest⟩ := execAll_cons_eq_next_iff.mp h
    exact ih (hs.of_exec hi hexec) his hrest

/-- SER.PIX that does not fault adds its pixel (R152). -/
theorem HoldsPixels.of_serPix (hs : HoldsPixels out q s) (hlen : q.length < 384)
    (h : exec (.serPix b) s = .next t) (ht : t.fault = false) : HoldsPixels out (q ++ [b]) t := by
  have hfault : s.fault = false := Bool.eq_false_iff.mpr fun hf => by simp [exec_fault_of_fault (by simp) h hf] at ht
  rw [exec_serPix_of_pixels b hfault hs.row hs.serIdx hlen] at h
  cases h
  exact ⟨hs.egress, rfl, rfl⟩

/-- SER.EMIT that does not fault appends the packed row's frame (R153). -/
theorem HoldsPixels.egress_of_serEmit (hs : HoldsPixels out q s) (h : exec .serEmit s = .next t) (ht : t.fault = false) :
    t.egress = out ++ encodeFrame .bitmapData (pack q).toList := by
  obtain ⟨hf, rfl⟩ | ⟨-, -, rfl⟩ | ⟨-, -, rfl⟩ := execSerEmit_cases h
  · simp [hf] at ht
  · simp at ht
  · rw [hs.egress, hs.row]

theorem srst_notMem_of_leavesRowAlone (his : ∀ i ∈ is, leavesRowAlone i = true) : .srst ∉ is := fun hmem => by
  cases his _ hmem

theorem srst_notMem_weave_serPix (hops : ∀ part ∈ parts, ∀ i ∈ part.1, leavesRowAlone i = true) :
    .srst ∉ weave .serPix parts := by
  intro hmem
  obtain ⟨part, hpart, hi⟩ := List.mem_flatMap.mp hmem
  obtain hi | hi := List.mem_append.mp hi
  · exact srst_notMem_of_leavesRowAlone (hops part hpart) hi
  · cases List.mem_singleton.mp hi

/-- A safe run of SER.PIX, each after operations that leave the row alone, adds the pixels in order. -/
theorem HoldsPixels.of_weave (hs : HoldsPixels out q s)
    (hops : ∀ part ∈ parts, ∀ i ∈ part.1, leavesRowAlone i = true) (hlen : (q ++ parts.map Prod.snd).length ≤ 384)
    (h : SafeRun (weave .serPix parts) s t) : HoldsPixels out (q ++ parts.map Prod.snd) t := by
  induction parts generalizing s q with
  | nil =>
    obtain ⟨⟨⟩, -⟩ := h
    simpa using hs
  | cons part parts ih =>
    obtain ⟨ops, b⟩ := part
    obtain ⟨hpart, hparts⟩ := List.forall_mem_cons.mp hops
    rw [weave_cons] at h
    obtain ⟨hrun, ht⟩ := h
    obtain ⟨u, hbetween, hrest⟩ := execAll_append_eq_next_iff.mp hrun
    obtain ⟨v, hpix, hv, hsafe⟩ := SafeRun.cons (srst_notMem_weave_serPix hparts) ⟨hrest, ht⟩
    have hq : q.length < 384 := by
      rw [List.length_append, List.map_cons, List.length_cons] at hlen
      omega
    rw [List.map_cons, List.append_cons] at hlen ⊢
    exact ih ((hs.of_execAll hpart hbetween).of_serPix hq hpix hv) hparts hlen hsafe

/-- Settles O48: SER.CLR leaves the packed row of no pixels, and the run keeps the packed row of the pixels so far up to
SER.EMIT. -/
theorem rowEquivalenceInterleaved : Obligations.RowEquivalenceInterleaved := by
  intro parts last s t hfault hbusy hlen hops hlast ⟨hrun, ht⟩
  rw [execAll_cons_of_next (exec_serClr hfault), ← pack_nil] at hrun
  obtain ⟨u, hpixels, hrest⟩ := execAll_append_eq_next_iff.mp hrun
  obtain ⟨v, hbetween, hend⟩ := execAll_append_eq_next_iff.mp hrest
  obtain ⟨w, hemit, ⟨⟩⟩ := execAll_cons_eq_next_iff.mp hend
  have hu : u.fault = false :=
    SafeRun.fault_eq_false (by simp [srst_notMem_of_leavesRowAlone hlast]) ⟨hrest, ht⟩
  have hcleared : HoldsPixels s.egress [] { s with row := pack [], serIdx := 0, rsp := none } := ⟨rfl, rfl, rfl⟩
  have hfilled := hcleared.of_weave hops (by simpa using hlen) ⟨hpixels, hu⟩
  exact (hfilled.of_execAll hlast hbetween).egress_of_serEmit hemit ht

end Sys2Proof.Machine
end

section
/-! Proofs for the control operations (spec 43_control.md R180 to R182): NOP and SRST act alike in every state, and RDREG
answers the register its index names or enters BAD_REG (60_exceptions.md R202). -/

namespace Sys2Proof.Machine

/-! ### NOP and SRST (R180, R181) -/

theorem exec_nop (s : State) : exec .nop s = .next s.quiet := rfl

theorem exec_srst (s : State) : exec .srst s = .next s.applyReset := rfl

/-- Settles O13, with no case on `fault`; NOP's word is the only one of its major opcode. -/
theorem nopDoesNothing : Obligations.NopDoesNothing := by
  refine ⟨by decide, fun w hmajor hw => ?_, exec_nop⟩
  exact decodeOp_reservedBits_of_full_mask (r := ⟨0x00000000#32, 0xFFFFFFFF#32, fun _ => .nop⟩)
    (by simp [opRows]) rfl hmajor hw

/-- Settles O14: SRST's word is the only one of its major opcode, and any other instruction keeps a set fault. -/
theorem srstResets : Obligations.SrstResets := by
  refine ⟨by decide, fun w hmajor hw => ?_, exec_srst, fun i s t hs h ht => ?_⟩
  · exact decodeOp_reservedBits_of_full_mask (r := ⟨0x01000000#32, 0xFFFFFFFF#32, fun _ => .srst⟩)
      (by simp [opRows]) rfl hmajor hw
  · by_contra hi
    have hkept : t.fault = true := exec_fault_of_fault hi h hs
    simp [hkept] at ht

/-! ### RDREG (R182) -/

/-- The word of RDREG as R182 writes it. -/
theorem opWord_rdreg (reg : Byte) : (Instr.rdreg reg).opWord = 0x02000000#32 ||| reg.zeroExtend 32 := rfl

/-- RDREG of a reserved index takes BAD_REG's fault entry, or is discarded while `fault` = 1 (R182, R202, R205). -/
theorem exec_rdreg_reserved {reg : Byte} (hreg : regOfIndex reg = none) (s : State) :
    exec (.rdreg reg) s = .next (s.raise .badReg (0x02000000#32 ||| reg.zeroExtend 32)) := by
  simp only [exec, execRdreg, hreg, opWord_rdreg]

/-- Settles O15, by the register an index names: each of R182's indices is the index of its register, and the reserved
ranges are the indices of none. -/
theorem rdregReadsTheRegister : Obligations.RdregReadsTheRegister := by
  refine ⟨fun reg => rfl, fun w hmajor hw => ?_, fun s => ?_, fun s k hk => exec_rdreg_index (.row ⟨k, hk⟩) s,
    fun s reg hreserved => ?_⟩
  · exact decodeOp_reservedBits_of_byte_mask (r := ⟨0x02000000#32, 0xFFFFFF00#32, fun w => .rdreg (regOf w)⟩)
      (by simp [opRows]) rfl (by decide) hmajor hw
  · exact ⟨exec_rdreg_index .crc s, exec_rdreg_index .status s, exec_rdreg_index .frLen s, exec_rdreg_index .frRem s,
      exec_rdreg_index .serIdx s, exec_rdreg_index .faultOpLo s, exec_rdreg_index .faultOpHi s,
      exec_rdreg_index .hres s, exec_rdreg_index .thresh s⟩
  · exact exec_rdreg_reserved ((regOfIndex_eq_none_iff reg).mpr hreserved) s

end Sys2Proof.Machine
end

section
/-! SUPPORT and proofs for the faults of spec 60_exceptions.md: which instruction raises which cause and when (R200 to R203),
that a fault entry records the fault and does nothing else (R204), the gating of R205, and that every step completes (R205,
R216, 70_reset_and_hazards.md R240). -/

namespace Sys2Proof.Machine

variable {s t : State} {i : Instr} {c : Cause}

/-! ### Raising a fault (R200 to R204) -/

theorem Faults.ne_none (h : Faults s i c) : c ≠ .none := by
  rintro rfl
  cases h

/-- ILLEGAL_OP belongs to the words without an instruction (R201). -/
theorem Faults.ne_illegalOp (h : Faults s i c) : c ≠ .illegalOp := by
  rintro rfl
  cases h

/-- Only the operations of an op word raise a fault, so the recorded word is the whole encoding (R204). -/
theorem Faults.encode_eq (h : Faults s i c) : encode i = .op i.opWord := by
  cases h <;> rfl

/-- While `fault` = 0 an instruction that raises a cause enters that fault (R204). -/
theorem Faults.exec_eq (h : Faults s i c) (hs : s.fault = false) : exec i s = .next (s.faulted i c) := by
  cases h with
  | rdreg reg hreg => exact execRdreg_of_reserved hreg hs
  | crcClr hbusy => exact exec_crcClr_of_busy hs hbusy
  | crcUpd b hbusy => exact exec_crcUpd_of_busy b hs hbusy
  | frBegin cmd len hbusy => exact exec_frBegin_of_busy cmd len hs hbusy
  | serEmit hbusy => exact exec_serEmit_of_busy hs hbusy
  | frData b hbusy => exact exec_frData_of_idle b hs hbusy
  | serPix b hfull => exact exec_serPix_of_full b hs hfull

/-- An instruction that sets `fault` has raised a cause and done nothing but its fault entry, because none that executes
sets `fault`. -/
theorem exists_faults_of_exec (hs : s.fault = false) (h : exec i s = .next t) (ht : t.fault = true) :
    ∃ c, Faults s i c ∧ t = s.faulted i c := by
  obtain ⟨hf, -⟩ | ⟨-, hfaults⟩ | hexec := exec_cases h
  · simp [hs] at hf
  · exact hfaults
  · simp [hexec.fault_of_fault ht] at hs

/-- Settles O30: an instruction that sets `fault` leads to the fault entry of its own cause and word. -/
theorem faultEntryRecordsOnlyTheFault : Obligations.FaultEntryRecordsOnlyTheFault := by
  intro i s t hs h ht
  obtain ⟨c, hc, rfl⟩ := exists_faults_of_exec hs h ht
  exact ⟨c, i.opWord, hc.ne_none, hc.encode_eq, rfl⟩

/-! ### The causes (R200) -/

theorem Cause.code_le_five (c : Cause) : c.code.toNat ≤ 5 := by
  cases c <;> decide

/-- From `fault` = 0 a cause is recorded exactly where the instruction raises it. -/
theorem faultCause_eq_iff (hs : s.fault = false) (h : exec i s = .next t) (c : Cause) :
    t.faultCause = c ∧ t.fault = true ↔ Faults s i c := by
  constructor
  · rintro ⟨rfl, ht⟩
    obtain ⟨c, hc, rfl⟩ := exists_faults_of_exec hs h ht
    exact hc
  · intro hc
    obtain rfl : s.faulted i c = t := Host.Outcome.next.inj ((hc.exec_eq hs).symm.trans h)
    exact ⟨rfl, rfl⟩

theorem faults_badReg_iff : Faults s i .badReg ↔ ∃ reg, i = .rdreg reg ∧ regOfIndex reg = none := by
  constructor
  · intro h
    cases h with
    | rdreg reg hreg => exact ⟨reg, rfl, hreg⟩
  · rintro ⟨reg, rfl, hreg⟩
    exact .rdreg reg hreg

theorem faults_frameBusy_iff :
    Faults s i .frameBusy ↔
      ((∃ cmd len, i = .frBegin cmd len) ∨ i = .serEmit ∨ i = .crcClr ∨ ∃ imm8, i = .crcUpd imm8) ∧
        s.frBusy = true := by
  constructor
  · intro h
    cases h with
    | frBegin cmd len hbusy => exact ⟨.inl ⟨cmd, len, rfl⟩, hbusy⟩
    | serEmit hbusy => exact ⟨.inr (.inl rfl), hbusy⟩
    | crcClr hbusy => exact ⟨.inr (.inr (.inl rfl)), hbusy⟩
    | crcUpd b hbusy => exact ⟨.inr (.inr (.inr ⟨b, rfl⟩)), hbusy⟩
  · rintro ⟨⟨cmd, len, rfl⟩ | rfl | rfl | ⟨b, rfl⟩, hbusy⟩
    · exact .frBegin cmd len hbusy
    · exact .serEmit hbusy
    · exact .crcClr hbusy
    · exact .crcUpd b hbusy

theorem faults_noFrame_iff : Faults s i .noFrame ↔ (∃ imm8, i = .frData imm8) ∧ s.frBusy = false := by
  constructor
  · intro h
    cases h with
    | frData b hbusy => exact ⟨⟨b, rfl⟩, hbusy⟩
  · rintro ⟨⟨b, rfl⟩, hbusy⟩
    exact .frData b hbusy

theorem faults_pixelOverflow_iff :
    Faults s i .pixelOverflow ↔ (∃ imm8, i = .serPix imm8) ∧ s.serIdx.toNat = 384 := by
  constructor
  · intro h
    cases h with
    | serPix b hfull => exact ⟨⟨b, rfl⟩, hfull⟩
  · rintro ⟨⟨b, rfl⟩, hfull⟩
    exact .serPix b hfull

/-- From `fault` = 0 only a word that decodes to no operation enters ILLEGAL_OP (R201). -/
theorem exists_decodeOp_error_of_step {w : OpWord} {rest : List Input} (hs : s.fault = false)
    (hin : s.inputs = .code (.op w) :: rest) (h : step s = .next t) (ht : t.fault = true)
    (hcause : t.faultCause = .illegalOp) : ∃ e, decodeOp w = .error e := by
  cases hd : decodeOp w with
  | error e => exact ⟨e, rfl⟩
  | ok i =>
    rw [step_of_decode hin hd] at h
    obtain ⟨c, hc, rfl⟩ := exists_faults_of_exec (s := { s with inputs := rest }) hs h ht
    exact absurd hcause hc.ne_illegalOp

/-- Settles O31: each cause by the instructions that raise it, ILLEGAL_OP by the decoder's refusal. -/
theorem faultCauses : Obligations.FaultCauses := by
  refine ⟨rfl, Cause.code_le_five, fun w s rest hs hin => ⟨fun hnone => ?_, fun h => ?_⟩, fun i s t hs h => ?_⟩
  · obtain ⟨e, he⟩ := decodeOp_error_iff.mpr fun ⟨r, hr, hw⟩ => hnone r hr hw
    rw [step_of_illegal_eq hin he, hs]
    rfl
  · intro r hr hw
    exact decodeOp_error_iff.mp (exists_decodeOp_error_of_step hs hin h rfl rfl) ⟨r, hr, hw⟩
  · refine ⟨(faultCause_eq_iff hs h _).trans faults_badReg_iff, (faultCause_eq_iff hs h _).trans faults_frameBusy_iff,
      (faultCause_eq_iff hs h _).trans faults_noFrame_iff, (faultCause_eq_iff hs h _).trans faults_pixelOverflow_iff,
      fun ht => ?_⟩
    obtain ⟨c, hc, rfl⟩ := exists_faults_of_exec hs h ht
    exact ⟨rfl, hc.ne_none, hc.ne_illegalOp, rfl⟩

/-! ### Gating (R205) -/

/-- RDREG of an index that names a register answers with it, whether or not `fault` is set (R182, R205). -/
theorem exec_rdreg_of_some {reg : Byte} {r : Reg} (hreg : regOfIndex reg = some r) (s : State) :
    exec (.rdreg reg) s = .next (s.respond (s.readReg r)) := by
  simp only [exec, execRdreg, hreg]

theorem exec_rdreg_reserved_of_fault {reg : Byte} (hreg : regOfIndex reg = none) (hs : s.fault = true) :
    exec (.rdreg reg) s = .next s.discard := by
  rw [exec_rdreg_reserved hreg, State.raise_of_fault _ _ _ hs]

/-- While `fault` = 1 every operation of an op word but NOP, SRST and RDREG is discarded. -/
theorem exec_eq_discard {w : OpWord} (hs : s.fault = true) (hop : encode i = .op w) (hnop : i ≠ .nop) (hsrst : i ≠ .srst)
    (hrdreg : ∀ reg, i ≠ .rdreg reg) : exec i s = .next s.discard := by
  cases i with
  | nop => exact absurd rfl hnop
  | srst => exact absurd rfl hsrst
  | rdreg reg => exact absurd rfl (hrdreg reg)
  | crcClr | crcUpd | crcTab | frBegin | frData | frAbort | serClr | serPix | serEmit => exact s.gated_of_fault _ hs
  | paper | getDeviceState | quality | energy | lattice | printSpeed | printMode | bitmapData => cases hop

/-- Settles O32, by what the word decodes to. -/
theorem gatingWhileFaulted : Obligations.GatingWhileFaulted := by
  intro w s rest hin
  refine ⟨fun hs => ?_, fun hs => ?_⟩
  · split
    next hd => exact step_of_decode hin hd
    next hd => exact step_of_decode hin hd
    next reg hd =>
      rw [step_of_decode hin hd]
      split
      next r hreg => exact exec_rdreg_of_some hreg _
      next hreg => exact exec_rdreg_reserved_of_fault hreg hs
    next hnop hsrst hrdreg =>
      cases hd : decodeOp w with
      | error e =>
        rw [step_of_illegal_eq hin hd, hs]
        rfl
      | ok i =>
        rw [step_of_decode hin hd]
        exact exec_eq_discard hs (encode_of_decodeOp hd) (fun h => hnop (h ▸ hd)) (fun h => hsrst (h ▸ hd))
          fun reg h => hrdreg reg (h ▸ hd)
  · split
    next e hd =>
      rw [step_of_illegal_eq hin hd, hs]
      rfl
    next i hd => exact step_of_decode hin hd

/-! ### Every step completes (R205, R216, R240) -/

theorem gated_completes {body : Host.Outcome State Fault Refusal} (h : ∃ t, body = .next t) :
    ∃ t, s.gated body = .next t := by
  cases hs : s.fault with
  | true => exact ⟨_, s.gated_of_fault body hs⟩
  | false => rwa [s.gated_of_clear body hs]

theorem ite_completes {p : Prop} [Decidable p] {a b : Host.Outcome State Fault Refusal} (ha : ∃ t, a = .next t)
    (hb : ∃ t, b = .next t) : ∃ t, (if p then a else b) = .next t := by
  split
  · exact ha
  · exact hb

/-- SER.PIX is the one operation that can stop, and within R29's range it writes its dot or finds the row full. -/
theorem exec_serPix_completes (b : Byte) (hidx : s.serIdx.toNat ≤ 384) : ∃ t, exec (.serPix b) s = .next t := by
  cases hs : s.fault with
  | true => exact ⟨_, s.gated_of_fault _ hs⟩
  | false =>
    obtain hlt | hfull := lt_or_eq_of_le hidx
    · exact ⟨_, exec_serPix_of_lt b hs hlt⟩
    · exact ⟨_, exec_serPix_of_full b hs hfull⟩

theorem exec_rdreg_completes (reg : Byte) (s : State) : ∃ t, exec (.rdreg reg) s = .next t := by
  cases hreg : regOfIndex reg with
  | some r => exact ⟨_, exec_rdreg_of_some hreg s⟩
  | none => exact ⟨_, exec_rdreg_reserved hreg s⟩

theorem exec_completes (i : Instr) (hidx : s.serIdx.toNat ≤ 384) : ∃ t, exec i s = .next t := by
  cases i with
  | nop => exact ⟨_, exec_nop s⟩
  | srst => exact ⟨_, exec_srst s⟩
  | rdreg reg => exact exec_rdreg_completes reg s
  | serPix b => exact exec_serPix_completes b hidx
  | crcTab | serClr => exact gated_completes ⟨_, rfl⟩
  | crcClr | crcUpd | frAbort | serEmit => exact gated_completes (ite_completes ⟨_, rfl⟩ ⟨_, rfl⟩)
  | frBegin => exact gated_completes (ite_completes ⟨_, rfl⟩ (ite_completes ⟨_, rfl⟩ ⟨_, rfl⟩))
  | frData => exact gated_completes (ite_completes (ite_completes ⟨_, rfl⟩ ⟨_, rfl⟩) ⟨_, rfl⟩)
  | paper | getDeviceState | quality | energy | lattice | printSpeed | printMode | bitmapData => exact ⟨_, rfl⟩

theorem step_completes (hidx : s.serIdx.toNat ≤ 384) : ∃ t, step s = .next t := by
  match hin : s.inputs with
  | [] => exact ⟨_, step_of_idle hin⟩
  | .resetI :: rest => exact ⟨_, step_of_resetI hin⟩
  | .code (.frame b) :: rest => exact ⟨_, step_of_frame hin⟩
  | .code (.op w) :: rest =>
    cases hd : decodeOp w with
    | error e => exact ⟨_, step_of_illegal hin hd⟩
    | ok i =>
      rw [step_of_decode hin hd]
      exact exec_completes i hidx

/-- Settles O44, by R29's range of `ser_idx`, which the serializer invariant holds. -/
theorem everyStepCompletes : Obligations.EveryStepCompletes :=
  ⟨fun i _ ⟨hidx, _⟩ => exec_completes i hidx, fun _ ⟨hidx, _⟩ => step_completes hidx⟩

end Sys2Proof.Machine
end

section
/-! Proofs of the statements about reset (spec 70_reset_and_hazards.md R230, R231): RESET_I and SRST are one reset of the
block, and the state it starts from meets the invariants of 10_state.md R28, R31, R33 and R34. -/

namespace Sys2Proof.Machine

variable {t : State}

/-- Settles O12: either way the step is the reset of R230, whose record is the one written out. -/
theorem resetEffect : Obligations.ResetEffect :=
  ⟨fun _ _ hin => step_of_resetI hin, exec_srst⟩

/-- R33, R34: while `fault` = 0 a sound record is the cause NONE and a zero word. -/
theorem FaultInv.of_clear (hfault : t.fault = false) (hcause : t.faultCause = .none) (hop : t.faultOp = 0) :
    FaultInv t :=
  ⟨fun _ => ⟨hcause, hop⟩, fun hset => absurd (hfault.symm.trans hset) Bool.false_ne_true⟩

/-- Settles O40: at reset the framer is idle, the row is clear and no fault is recorded. -/
theorem resetMeetsStateInv : Obligations.ResetMeetsStateInv :=
  ⟨.of_idle rfl rfl, .of_clear rfl rfl, .of_clear rfl rfl rfl⟩

end Sys2Proof.Machine
end
